-- ==== Sys2Proof/Word.lean ====
section
/-!
DEFINITION. The word types of CORE (00_scope.md R6: `W` = 32, `DW` = 64, `OPW` = 4).
-/

namespace Sys2Proof

/-- A 32-bit word: the width of a DoubleWord half and of every 32-bit operation (R6, `W`). -/
abbrev Word := BitVec 32

/-- A 64-bit DoubleWord (R6, `DW`; R8). The high half is `[63:32]`, the low half `[31:0]`. -/
abbrev DWord := BitVec 64

/-- The operation field of a request (R6, `OPW`; R61). -/
abbrev OpField := BitVec 4

end Sys2Proof
end

