-- ==== Sys2Proof/Config.lean ====
section
/-!
DEFINITION. What an implementation fixes (00_scope.md R6) and the free values (R9, `draw_N`).
The parameters are data: a machine carries its own in `State.params`, which no step changes (R33),
so that a statement over all states is a statement over all parameters. The free values are opaque.
-/

namespace Sys2Proof

/-- `P_DIV0_32` (R6, R108): what a 32-bit divide or remainder by zero does. -/
inductive Div0Policy where
  | draw    -- completes normally, both results are draws
  | fault   -- raises DIV_ZERO, as the 64-bit divides do
  deriving DecidableEq, Repr, Inhabited

/-- `P_MUL_IMPL` (R6, R80): the structure of the 32x32 multiplier. No port can observe it. -/
inductive MulImpl where
  | shiftAdd
  | booth
  | wallace
  deriving DecidableEq, Repr, Inhabited

/-- How long a divide takes (R180). Both forms stay within the maximum of its width. -/
inductive DivLatency where
  | reference   -- the reference value `2 + s + (s + 1)`, `s` the number of alignment steps
  | drawn       -- any number of edges from 1 to the maximum, a free value at each request
  deriving DecidableEq, Repr, Inhabited

/-- The build parameters of R6 that a rule of CORE reads. The OPEN ones that concern the requester only
(`P_WORD_ORDER`, `P_BYTE_ORDER`, `P_MAP`, `P_CORE_TRAP`) enter no rule of CORE (R41, R42, R46, R153). -/
structure Params where
  pDiv0_32     : Div0Policy
  pMulImpl     : MulImpl
  pLatShift    : Nat
  pLatMul      : Nat
  pLatDiv32Max : Nat
  pLatDiv64Max : Nat
  pLatFault    : Nat
  divLatency   : DivLatency
  deriving DecidableEq, Repr, Inhabited

/-- The spec's default for `P_DIV0_32` (R6) and its reference latencies (R180).
DESIGN CHOICE: `P_MUL_IMPL` has no default in the spec; SHIFT_ADD is the source's own loop (notes/assumptions/4.md).
DESIGN CHOICE: the divide latency is R180's exact count (notes/assumptions/5.md). -/
def Params.reference : Params where
  pDiv0_32     := .draw
  pMulImpl     := .shiftAdd
  pLatShift    := 1
  pLatMul      := 3
  pLatDiv32Max := 65
  pLatDiv64Max := 129
  pLatFault    := 1
  divLatency   := .reference

/-- Where the spec draws a value. Two places never share a draw. -/
inductive DrawSite where
  | resRead        -- port `res` while RES is unspecified (R29)
  | res2Read       -- port `res2` while RES2 is unspecified (R29)
  | quotient       -- quotient of a 32-bit divide by zero (R108)
  | remainder      -- remainder of a 32-bit divide by zero (R108)
  | shiftOut       -- result of a shift by 64 or more (R135)
  | latchOp        -- OPL after a reset edge (R34)
  | latchA         -- AL after a reset edge (R34)
  | latchB         -- BL after a reset edge (R34)
  | hiddenReg (k : Nat)   -- the k-th hidden register after a reset edge (R34, R171)
  deriving DecidableEq, Repr, Inhabited

/-- `draw_N()` of R9, "a value of N bits that the hardware does not fix". FREE VALUE: no body, so nothing
can be proved about it. It is applied to its place and to the number of the edge (`State.edge`). -/
opaque Config.draw (n : Nat) (site : DrawSite) (edge : Nat) : BitVec n

/-- The number behind a drawn latency (R180 with `DivLatency.drawn`). FREE VALUE, reduced into its range where used. -/
opaque Config.drawLatency (edge : Nat) : Nat

end Sys2Proof
end

