-- ==== Sys2Proof/Syntax.lean ====
section
/-!
DEFINITION. Requests as CORE takes them: the raw request of R60 and its decoded form, one constructor
for each row of spec/opcode_table.json. Each carries both operands whole, as the ports do (R60), also the
bits that its operation does not read (R67).
-/

namespace Sys2Proof

/-- The one request format `REQ` (30_encoding.md R60). -/
structure Request where
  op : OpField
  a  : DWord
  b  : DWord
  deriving DecidableEq, Repr, Inhabited

/-- A decoded request (R62, R71). The two reserved values of `op` are rows of the opcode table. -/
inductive Instr where
  | mul32 (a b : DWord)
  | mulwu (a b : DWord)
  | mul64 (a b : DWord)
  | divu32 (a b : DWord)
  | remu32 (a b : DWord)
  | div32 (a b : DWord)
  | rem32 (a b : DWord)
  | divu64 (a b : DWord)
  | remu64 (a b : DWord)
  | div64 (a b : DWord)
  | rem64 (a b : DWord)
  | sll64 (a b : DWord)
  | srl64 (a b : DWord)
  | sra64 (a b : DWord)
  | reserved0011 (a b : DWord)
  | reserved1111 (a b : DWord)
  deriving DecidableEq, Repr, Inhabited

/-- `FAM`, bits `op[3:2]` (R61). -/
inductive Family where
  | multiply
  | divide32
  | divide64
  | shift
  deriving DecidableEq, Repr, Inhabited

end Sys2Proof
end

