-- ==== Sys2Proof/WellFormed.lean ====
section
/-!
DEFINITION. Well-formedness. `Instr` and `Request` hold every field at its port width, and no rule
relates one field to another (R60, R67: unread bits are free), so the typed forms are well formed as they are.
What can be ill formed is a request written with numbers, before it is put on the ports: each number must
fit its field (R60).
-/

namespace Sys2Proof

/-- A request as plain numbers, as a requester or a listing writes it. -/
structure RawRequest where
  op : Nat
  a  : Nat
  b  : Nat
  deriving DecidableEq, Repr

/-- Every number fits its field of R60: 4, 64 and 64 bits. -/
def RawRequest.wellFormed (r : RawRequest) : Bool :=
  decide (r.op < 2 ^ 4) && decide (r.a < 2 ^ 64) && decide (r.b < 2 ^ 64)

/-- The numbers on the ports for a request. -/
def Request.raw (r : Request) : RawRequest := ⟨r.op.toNat, r.a.toNat, r.b.toNat⟩

/-- The ports' values for a raw request, refused when a number does not fit. -/
def RawRequest.toRequest? (r : RawRequest) : Option Request :=
  if r.wellFormed then some ⟨.ofNat 4 r.op, .ofNat 64 r.a, .ofNat 64 r.b⟩ else none

end Sys2Proof
end

