-- ==== Sys2Proof/Decode.lean ====
section
/-!
DEFINITION. Decoding and encoding of requests (30_encoding.md R60 to R71), the number that stands for a
request word, and the assembly notation of R69.
-/

namespace Sys2Proof

/-- `FAM = op[3:2]` (R61). -/
def Request.family (r : Request) : Family :=
  match r.op.getLsbD 3, r.op.getLsbD 2 with
  | false, false => .multiply
  | false, true  => .divide32
  | true,  false => .divide64
  | true,  true  => .shift

/-- In the divide families, `S = op[1]`: the operands are signed (R61). -/
def Request.isSigned (r : Request) : Bool := r.op.getLsbD 1

/-- Decoding is a total function of the operation field (R71). The last arm is `0b1111` alone. -/
def decode (r : Request) : Instr :=
  match r.op with
  | 0b0000#4 => .mul32 r.a r.b
  | 0b0001#4 => .mulwu r.a r.b
  | 0b0010#4 => .mul64 r.a r.b
  | 0b0011#4 => .reserved0011 r.a r.b
  | 0b0100#4 => .divu32 r.a r.b
  | 0b0101#4 => .remu32 r.a r.b
  | 0b0110#4 => .div32 r.a r.b
  | 0b0111#4 => .rem32 r.a r.b
  | 0b1000#4 => .divu64 r.a r.b
  | 0b1001#4 => .remu64 r.a r.b
  | 0b1010#4 => .div64 r.a r.b
  | 0b1011#4 => .rem64 r.a r.b
  | 0b1100#4 => .sll64 r.a r.b
  | 0b1101#4 => .srl64 r.a r.b
  | 0b1110#4 => .sra64 r.a r.b
  | _        => .reserved1111 r.a r.b

/-- The request of an instruction (R62). -/
def encode : Instr → Request
  | .mul32 a b => ⟨0b0000, a, b⟩
  | .mulwu a b => ⟨0b0001, a, b⟩
  | .mul64 a b => ⟨0b0010, a, b⟩
  | .reserved0011 a b => ⟨0b0011, a, b⟩
  | .divu32 a b => ⟨0b0100, a, b⟩
  | .remu32 a b => ⟨0b0101, a, b⟩
  | .div32 a b => ⟨0b0110, a, b⟩
  | .rem32 a b => ⟨0b0111, a, b⟩
  | .divu64 a b => ⟨0b1000, a, b⟩
  | .remu64 a b => ⟨0b1001, a, b⟩
  | .div64 a b => ⟨0b1010, a, b⟩
  | .rem64 a b => ⟨0b1011, a, b⟩
  | .sll64 a b => ⟨0b1100, a, b⟩
  | .srl64 a b => ⟨0b1101, a, b⟩
  | .sra64 a b => ⟨0b1110, a, b⟩
  | .reserved1111 a b => ⟨0b1111, a, b⟩

/-! ### A request as one number

DESIGN CHOICE (notes/assumptions/2.md): the ports are separate wires and R60 gives no bit order among them.
The model numbers a request's 132 bits with `op` at 3:0 (as the opcode table does), `a` at 67:4, `b` at 131:68. -/

/-- The 132 bits of a request. -/
def Request.toWord (r : Request) : BitVec 132 :=
  r.op.setWidth 132 ||| (r.a.setWidth 132 <<< 4) ||| (r.b.setWidth 132 <<< 68)

/-- The request in 132 bits. -/
def Request.ofWord (w : BitVec 132) : Request :=
  ⟨w.extractLsb' 0 4, w.extractLsb' 4 64, w.extractLsb' 68 64⟩

/-- Why a number is no request word. -/
inductive DecodeError where
  /-- The number has a bit at or above 132: "Requests have no other length" (R60). -/
  | notARequest
  deriving DecidableEq, Repr

/-- What decoding a number answers. -/
inductive Decoded where
  | instr (i : Instr)
  | rejected (why : DecodeError)
  deriving DecidableEq, Repr

/-- Decode any number, rejecting by name what is no request. -/
def decodeWord (w : Nat) : Decoded :=
  if w < 2 ^ 132 then .instr (decode (.ofWord (.ofNat 132 w))) else .rejected .notARequest

/-- The number of an instruction's request. -/
def encodeWord (i : Instr) : Nat := (encode i).toWord.toNat

/-- The instruction in an answer of the decoder. -/
def Decoded.instr? : Decoded → Option Instr
  | .instr i => some i
  | .rejected _ => none

/-- The request whose low `nbits` bits are `w` and whose other bits are 0. -/
def Request.ofTableWord (nbits w : Nat) : Request := .ofWord (.ofNat 132 (w % 2 ^ nbits))

/-- The instruction the decoder reads from an opcode-table word. -/
def decodeTableWord (nbits w : Nat) : Option Instr := (decodeWord (w % 2 ^ nbits)).instr?

/-! ### Assembly notation (R69)

A line of a program is a mnemonic and two integer literals, or `.req` and the operation field itself. Turning
characters into the mnemonic and the integers is left out. -/

/-- The lower-case mnemonics of R69 and the operation field of each (R62). -/
def mnemonics : List (String × OpField) :=
  [("mul32", 0b0000), ("mulwu", 0b0001), ("mul64", 0b0010), ("divu32", 0b0100), ("remu32", 0b0101),
   ("div32", 0b0110), ("rem32", 0b0111), ("divu64", 0b1000), ("remu64", 0b1001), ("div64", 0b1010),
   ("rem64", 0b1011), ("sll64", 0b1100), ("srl64", 0b1101), ("sra64", 0b1110)]

/-- A line of a program. -/
inductive AsmLine where
  | op (mnemonic : String) (a b : Int)
  | req (op : OpField) (a b : Int)
  deriving DecidableEq, Repr

/-- The operation reads 32-bit operands: MUL32, MULWU and the 32-bit divides (R63). -/
def OpField.readsWords (op : OpField) : Bool :=
  match op with
  | 0b0000#4 | 0b0001#4 | 0b0100#4 | 0b0101#4 | 0b0110#4 | 0b0111#4 => true
  | _ => false

/-- The second operand is a shift count (R63). -/
def OpField.readsCount (op : OpField) : Bool :=
  match op with
  | 0b1100#4 | 0b1101#4 | 0b1110#4 => true
  | _ => false

/-- A literal reduced modulo `2^32` into `[31:0]`, the upper port bits 0 (R69). -/
def literal32 (x : Int) : DWord := (BitVec.ofInt 32 x).setWidth 64

/-- A literal reduced modulo `2^64` (R69). -/
def literal64 (x : Int) : DWord := BitVec.ofInt 64 x

/-- The request of an operation field and two literals (R69). MULWU reads 32-bit operands (R63) and is reduced
like the 32-bit operations (notes/assumptions/16.md). DESIGN CHOICE: the literals of a reserved request are
reduced modulo `2^64`; the operation reads neither (R67). -/
def assembleOp (op : OpField) (a b : Int) : Request :=
  { op := op
    a := if op.readsWords then literal32 a else literal64 a
    b := if op.readsWords || op.readsCount then literal32 b else literal64 b }

/-- The request of a line, or none where the mnemonic is not one of R62 or a `.req` names an operation that is
not reserved. -/
def assemble : AsmLine → Option Request
  | .op m a b => (mnemonics.lookup m).map (assembleOp · a b)
  | .req op a b => if op = 0b0011 ∨ op = 0b1111 then some (assembleOp op a b) else none

end Sys2Proof
end

