-- ==== Sys2Proof/Machine/State.lean ====
section
/-!
DEFINITION. The state of CORE (10_state.md): the visible registers, the hidden registers of the datapath, the
input ports at the coming edges, and the model's own record, counters and parameters. Plain data.
CORE has no memory (R40), register file (R21) or program counter (R22).
-/

namespace Sys2Proof.Machine

/-- The causes of a fault (60_exceptions.md R150): the fault outcomes of `Exec` (R10). A request that faults ends
in the fault entry of R152, which is a NEXT state; `exec` and `step` never answer `Outcome.fault`. -/
inductive Fault where
  /-- `0b01`: a reserved `op` (R65). Raised by the meanings of RESERVED_0011 and RESERVED_1111. Safe: the spec's own fault. -/
  | illegalOp
  /-- `0b10`: a 64-bit divide with `b = 0` (R109), or a 32-bit one with `b[31:0] = 0` when `P_DIV0_32 = FAULT` (R108).
  Raised by the meanings of the eight divides. Safe: the spec's own fault. -/
  | divZero
  deriving DecidableEq, Repr

/-- Why the model gives no answer. `step` never refuses. -/
inductive Refusal where
  /-- An instruction without a meaning. No arm of `exec` answers it: all 16 rows are modelled. Safe: nothing is claimed. -/
  | notModelled (mnemonic : String)
  /-- Cause code `0b11`, which CORE never produces; a reader refuses to interpret it (93_implementation_defined.md I6).
  Raised by `State.causeName`. Safe: nothing is claimed of it. -/
  | reservedCause
  deriving DecidableEq, Repr

/-- `STATE` (R25). -/
inductive Status where
  | idle
  | busy
  deriving DecidableEq, Repr, Inhabited

/-- A result register as R35 has it: 64 bits, or `Unspec`, which "reads as a fresh draw every time it is read". -/
inductive ResultReg where
  | value (v : DWord)
  | unspec
  deriving DecidableEq, Repr, Inhabited

/-- The outcome of `Exec` (R10). -/
inductive ExecResult where
  | ok (r r2 : DWord)
  | fault (c : Fault)
  deriving DecidableEq, Repr

/-- The draws that one request may name (R9, R10): those of R108 and R135. -/
structure Draws where
  quotient  : Word
  remainder : Word
  shiftOut  : DWord
  deriving DecidableEq, Repr

/-- What the divider does at its next edge (R102, R103, R180). -/
inductive DivPhase where
  | magnitude   -- take the magnitudes of the operands
  | align       -- shift the denominator, or do the first restoring iteration
  | restore     -- a restoring iteration
  | place       -- the sign and the placement: the pair is ready
  deriving DecidableEq, Repr, Inhabited

/-- The restoring divider's registers (R30). The 32-bit divides use the low 32 bits. -/
structure DivRegs where
  n     : DWord
  d     : DWord
  bit   : DWord
  q     : DWord
  ns    : Bool
  ds    : Bool
  phase : DivPhase
  deriving DecidableEq, Repr, Inhabited

/-- The multiplier's registers (R30): the stages of R84, the two cross products of R86, the loop registers of R82. -/
structure MulRegs where
  pll : Word
  phl : Word
  plh : Word
  phh : Word
  t2  : Word
  t3  : Word
  c1  : Word
  c2  : Word
  acc : Word
  x   : Word
  y   : Word
  deriving DecidableEq, Repr, Inhabited

/-- The hidden state of R30. `count` is the latency counter: the edges still to come up to and including
the one that ends the request. -/
structure Hidden where
  div   : DivRegs
  mul   : MulRegs
  count : Nat
  deriving DecidableEq, Repr, Inhabited

/-- The input ports at one rising edge (R20). -/
structure Pins where
  rst     : Bool
  inValid : Bool
  op      : OpField
  a       : DWord
  b       : DWord
  deriving DecidableEq, Repr, Inhabited

/-- An entry of the sticky record (R35, R153): which request faulted, counted from 1 at its accept, and why. -/
structure FaultRecord where
  request : Nat
  cause   : Fault
  deriving DecidableEq, Repr

/-- The machine. `pins` holds the input ports at the coming edges, the next one first; an edge past the end of the
list sees idle inputs. `faults` is the record of R153, oldest first. `accepts` numbers the requests and `edge` the
edges, the index of every free value. `params` are the build parameters, which no step changes (R33). -/
structure State where
  st      : Status
  opl     : OpField
  al      : DWord
  bl      : DWord
  res     : ResultReg
  res2    : ResultReg
  cause   : BitVec 2
  valid   : Bool
  flt     : Bool
  hidden  : Hidden
  pins    : List Pins
  faults  : List FaultRecord
  accepts : Nat
  edge    : Nat
  params  : Params
  deriving DecidableEq, Repr

/-- The divider's registers at reset. DESIGN CHOICE (notes/assumptions/7.md): R34 leaves them unspecified. -/
def DivRegs.zero : DivRegs where
  n := 0
  d := 0
  bit := 0
  q := 0
  ns := false
  ds := false
  phase := .magnitude

/-- The multiplier's registers at reset. DESIGN CHOICE (notes/assumptions/7.md): R34 leaves them unspecified. -/
def MulRegs.zero : MulRegs where
  pll := 0
  phl := 0
  plh := 0
  phh := 0
  t2 := 0
  t3 := 0
  c1 := 0
  c2 := 0
  acc := 0
  x := 0
  y := 0

/-- CORE with parameters `p` right after reset (R34), with nothing on the inputs.
DESIGN CHOICE: OPL, AL and BL (notes/assumptions/6.md) and the hidden registers (notes/assumptions/7.md) are 0. -/
def State.resetWith (p : Params) : State where
  st      := .idle
  opl     := 0
  al      := 0
  bl      := 0
  res     := .value 0
  res2    := .value 0
  cause   := 0b00
  valid   := false
  flt     := false
  hidden  := ⟨.zero, .zero, 0⟩
  pins    := []
  faults  := []
  accepts := 0
  edge    := 0
  params  := p

/-- The machine right after reset, with the spec's default and reference parameters. -/
def State.reset : State := .resetWith .reference

end Sys2Proof.Machine
end

