-- ==== Sys2Proof/Machine/Operands.lean ====
section
/-!
DEFINITION. Operand forms and notation: the halves of a DoubleWord (R8), `bits_N`, `zext`, `sext`, `tdiv`, `trem`
(R7), the operands each operation reads (R63), and the word order of a requester's memory (R41).
-/

namespace Sys2Proof.Machine

/-- `hi(x) = x[63:32]` (R8). -/
def hi (x : DWord) : Word := x.extractLsb' 32 32

/-- `lo(x) = x[31:0]` (R8): also the operand every 32-bit operation reads (R63). -/
def lo (x : DWord) : Word := x.extractLsb' 0 32

/-- `assemble(h, l) = h ++ l` (R8). -/
def assembleHalves (h l : Word) : DWord := h ++ l

/-- `zext_64` of a word (R7). -/
def zext64 (w : Word) : DWord := w.setWidth 64

/-- `sext_64` of a word (R7). -/
def sext64 (w : Word) : DWord := w.signExtend 64

/-- `bits_n(i)`: the integer `i` modulo `2^n` (R7). -/
def bitsOf (n : Nat) (i : Int) : BitVec n := BitVec.ofInt n i

/-- `tdiv(n, d)`: the quotient rounded toward zero (R7). -/
def tdiv (n d : Int) : Int := n.tdiv d

/-- `trem(n, d) = n - d*tdiv(n, d)` (R7). -/
def trem (n d : Int) : Int := n - d * tdiv n d

/-- The shift count `k = u(b[31:0])` (R63). -/
def shiftCount (b : DWord) : Nat := (lo b).toNat

/-- `P_WORD_ORDER` (R41): which half of a DoubleWord a requester keeps at the lower address. -/
inductive WordOrder where
  | highFirst
  | lowFirst
  deriving DecidableEq, Repr

/-- The DoubleWord a requester loads from the words at `addr` and `addr + 4` (R41). No rule of CORE reads it. -/
def loadDouble (o : WordOrder) (w0 w4 : Word) : DWord :=
  match o with
  | .highFirst => assembleHalves w0 w4
  | .lowFirst  => assembleHalves w4 w0

/-- The words a requester stores at `addr` and `addr + 4`: what `loadDouble` loads back (R41). -/
def storeDouble (o : WordOrder) (x : DWord) : Word × Word :=
  match o with
  | .highFirst => (hi x, lo x)
  | .lowFirst  => (lo x, hi x)

end Sys2Proof.Machine
end

