-- ==== Sys2Proof/Machine/Flags.lean ====
section
/-!
DEFINITION. CORE has no condition codes (R31): "The only status CORE reports is on the handshake and fault
outputs". This file holds those outputs and the fault codes: every output port of R20 as a function of the state.
Reading a port changes nothing (R45).
-/

namespace Sys2Proof.Machine

/-- The cause code of a fault (R150). -/
def Fault.code : Fault → BitVec 2
  | .illegalOp => 0b01
  | .divZero   => 0b10

/-- The input ports at the coming edge. DESIGN CHOICE (notes/assumptions/1.md): past the end of the list the requester
offers nothing and does not reset. -/
def State.input (s : State) : Pins := s.pins.headD ⟨false, false, 0, 0, 0⟩

/-- Port `in_ready` (R28): `STATE = IDLE` and `rst = 0`. -/
def State.inReady (s : State) : Bool := s.st == .idle && !s.input.rst

/-- Port `out_valid` (R25). -/
def State.outValid (s : State) : Bool := s.valid

/-- Port `fault` (R25). -/
def State.faultOut (s : State) : Bool := s.flt

/-- Port `cause` (R20). -/
def State.causeOut (s : State) : BitVec 2 := s.cause

/-- What a result port shows: the register, or a draw while it is unspecified (R29, R35). -/
def ResultReg.read (r : ResultReg) (site : DrawSite) (edge : Nat) : DWord :=
  match r with
  | .value v => v
  | .unspec  => Config.draw 64 site edge

/-- Port `res` (R24). -/
def State.resOut (s : State) : DWord := s.res.read .resRead s.edge

/-- Port `res2` (R24). -/
def State.res2Out (s : State) : DWord := s.res2.read .res2Read s.edge

/-- The name of the code on port `cause`: none, or a fault. The reserved code is refused (R150, I6). -/
def State.causeName (s : State) : Except Refusal (Option Fault) :=
  if s.cause = 0b00 then .ok none
  else if s.cause = 0b01 then .ok (some .illegalOp)
  else if s.cause = 0b10 then .ok (some .divZero)
  else .error .reservedCause

end Sys2Proof.Machine
end

