-- ==== Sys2Proof/Machine/Datapath.lean ====
section
/-!
DEFINITION. The reference datapaths of the spec: shift-and-add (R82), the half-word multiply (R84), the composition
of MUL64 (R86), Booth and Wallace (R87), restoring division (R102, R103), the half-word shifter (R134); and the
hidden registers they keep while a request is in flight (R30). The results of CORE never read these (R80, R100,
R130): the meanings are in Multiply, Divide and Shift.
-/

namespace Sys2Proof.Machine

/-! ### Shift-and-add (R82) -/

/-- One iteration of R82's loop on the registers `acc`, `x`, `y`, while `y` is not zero. -/
def MulRegs.shiftAddStep (r : MulRegs) : MulRegs :=
  if r.y = 0 then r
  else { r with acc := if r.y.getLsbD 0 then r.acc + r.x else r.acc, x := r.x <<< 1, y := r.y >>> 1 }

/-- `k` iterations. -/
def MulRegs.shiftAddLoop : Nat → MulRegs → MulRegs
  | 0, r => r
  | k + 1, r => shiftAddLoop k r.shiftAddStep

/-- R82 run to its end: "at most 32 times". -/
def shiftAddMultiply (x y : Word) : Word :=
  (MulRegs.shiftAddLoop 32 { MulRegs.zero with acc := 0, x := x, y := y }).acc

/-! ### Half-word decomposition (R84) -/

/-- The low 16 bits of a word, in a word. -/
def loHalf (w : Word) : Word := w &&& 0xFFFF#32

/-- The high 16 bits of a word, in a word. -/
def hiHalf (w : Word) : Word := w >>> 16

/-- First stage: the four partial products, each in a 32-bit register. -/
def MulRegs.partialProducts (r : MulRegs) (x y : Word) : MulRegs :=
  { r with
    pll := loHalf x * loHalf y
    phl := hiHalf x * loHalf y
    plh := loHalf x * hiHalf y
    phh := hiHalf x * hiHalf y }

/-- `t2 = ah*bl + k1` (R84). -/
def MulRegs.sum2 (r : MulRegs) : Word := r.phl + hiHalf r.pll

/-- `t3 = al*bh + w1` (R84). -/
def MulRegs.sum3 (r : MulRegs) : Word := r.plh + loHalf r.sum2

/-- Second stage: the carry sums. -/
def MulRegs.carrySums (r : MulRegs) : MulRegs := { r with t2 := r.sum2, t3 := r.sum3 }

/-- Third stage: `hi ++ lo` from the partial products and the carry sums. -/
def MulRegs.highSum (r : MulRegs) : DWord :=
  assembleHalves (r.phh + hiHalf r.t2 + hiHalf r.t3) ((r.t3 <<< 16) + loHalf r.pll)

/-- R84 as a function: all three stages. Every register is 32 bits, so that a sum that overflowed would be lost. -/
def halfWordMultiply (x y : Word) : DWord := (MulRegs.zero.partialProducts x y).carrySums.highSum

/-! ### Booth and Wallace (R87) -/

/-- Radix-4 Booth digit of a triple `(y[2i+1], y[2i], y[2i-1])` (R87). -/
def boothDigit : Bool → Bool → Bool → Int
  | false, false, false => 0
  | false, false, true  => 1
  | false, true,  false => 1
  | false, true,  true  => 2
  | true,  false, false => -2
  | true,  false, true  => -1
  | true,  true,  false => -1
  | true,  true,  true  => 0

/-- The `i`-th digit of the multiplier, zero-extended above bit 31, with `y[-1] = 0`. -/
def boothDigitAt (y : Word) (i : Nat) : Int :=
  boothDigit (y.getLsbD (2 * i + 1)) (y.getLsbD (2 * i)) (decide (i ≠ 0) && y.getLsbD (2 * i - 1))

/-- The sum of the first `k` rows `digit_i * x * 4^i`. -/
def boothSum (x y : Word) : Nat → Int
  | 0 => 0
  | k + 1 => boothSum x y k + boothDigitAt y k * x.toNat * 4 ^ k

/-- The whole product by the 17 digits. -/
def boothMultiply (x y : Word) : DWord := bitsOf 64 (boothSum x y 17)

/-- A 3:2 compressor: the sum row and the carry row of three rows. -/
def compress (a b c : DWord) : DWord × DWord :=
  (a ^^^ b ^^^ c, ((a &&& b) ||| (a &&& c) ||| (b &&& c)) <<< 1)

/-- One layer of compressors over the rows. -/
def wallaceLayer : List DWord → List DWord
  | a :: b :: c :: rest => (compress a b c).1 :: (compress a b c).2 :: wallaceLayer rest
  | rows => rows

/-- Layers until two rows are left, at most `k` of them. -/
def wallaceReduce : Nat → List DWord → List DWord
  | 0, rows => rows
  | k + 1, rows => if rows.length ≤ 2 then rows else wallaceReduce k (wallaceLayer rows)

/-- The partial-product rows of bits `0` to `k - 1` of the multiplier. DESIGN CHOICE: R87 says only "the partial-product
rows"; the model takes one row for each bit of the multiplier and no Booth digit rows (notes/assumptions/20.md). -/
def partialRows (x y : Word) : Nat → List DWord
  | 0 => []
  | k + 1 => (if y.getLsbD k then zext64 x <<< k else 0) :: partialRows x y k

/-- The 32 rows, compressed to two and added by one carry-propagate add. -/
def wallaceMultiply (x y : Word) : DWord :=
  match wallaceReduce 32 (partialRows x y 32) with
  | [a, b] => a + b
  | [a] => a
  | _ => 0

/-- The 32x32 multiplier of `P_MUL_IMPL`: the low word of the product (R80). -/
def mul32Structure (impl : MulImpl) (x y : Word) : Word :=
  match impl with
  | .shiftAdd => shiftAddMultiply x y
  | .booth    => lo (boothMultiply x y)
  | .wallace  => lo (wallaceMultiply x y)

/-- MUL64 from MULWU of the low halves and two cross products by the 32x32 multiplier (R86). -/
def composeMultiply (impl : MulImpl) (a b : DWord) : DWord :=
  let wide := halfWordMultiply (lo a) (lo b)
  assembleHalves (hi wide + mul32Structure impl (hi a) (lo b) + mul32Structure impl (lo a) (hi b)) (lo wide)

/-! ### The multiplier's hidden registers -/

/-- The registers a new request starts from: the loop registers of R82 loaded. DESIGN CHOICE: the stage and cross-product
registers, which R30 gives no starting value, are 0 (notes/assumptions/13.md). -/
def MulRegs.load (a b : DWord) : MulRegs := { MulRegs.zero with x := lo a, y := lo b }

/-- One edge of a multiply in flight: each stage from the stage before it, one turn of R82's loop. -/
def MulRegs.tick (impl : MulImpl) (a b : DWord) (r : MulRegs) : MulRegs :=
  let r' := { r.carrySums with c1 := mul32Structure impl (hi a) (lo b), c2 := mul32Structure impl (lo a) (hi b) }
  (r'.partialProducts (lo a) (lo b)).shiftAddStep

/-! ### Restoring division (R102, R103) -/

/-- The width of a divide. -/
inductive DivWidth where
  | w32
  | w64
  deriving DecidableEq, Repr

/-- The number of the top bit of a register at this width. -/
def DivWidth.top : DivWidth → Nat
  | .w32 => 31
  | .w64 => 63

/-- `bits_N` of a register that holds 64 bits. -/
def DivWidth.trunc (w : DivWidth) (x : DWord) : DWord :=
  match w with
  | .w32 => zext64 (lo x)
  | .w64 => x

/-- The alignment test of R102 and R103: `u(D) < u(N)` and the top bit of `D` is clear (90_conflicts.md C6). -/
def DivRegs.canAlign (w : DivWidth) (r : DivRegs) : Bool :=
  decide (r.d.toNat < r.n.toNat) && !r.d.getLsbD w.top

/-- One alignment step. -/
def DivRegs.alignStep (w : DivWidth) (r : DivRegs) : DivRegs :=
  { r with d := w.trunc (r.d <<< 1), bit := w.trunc (r.bit <<< 1) }

/-- One restoring iteration. -/
def DivRegs.restoreStep (r : DivRegs) : DivRegs :=
  let r' := if r.n.toNat ≥ r.d.toNat then { r with n := r.n - r.d, q := r.q ||| r.bit } else r
  { r' with bit := r.bit >>> 1, d := r.d >>> 1 }

/-- The alignment loop, at most `k` steps. -/
def DivRegs.alignLoop (w : DivWidth) : Nat → DivRegs → DivRegs
  | 0, r => r
  | k + 1, r => if r.canAlign w then alignLoop w k (r.alignStep w) else r

/-- The number of steps the alignment loop takes, at most `k`. -/
def DivRegs.alignCount (w : DivWidth) : Nat → DivRegs → Nat
  | 0, _ => 0
  | k + 1, r => if r.canAlign w then alignCount w k (r.alignStep w) + 1 else 0

/-- The restoring loop, at most `k` iterations. -/
def DivRegs.restoreLoop : Nat → DivRegs → DivRegs
  | 0, r => r
  | k + 1, r => if r.bit = 0 then r else restoreLoop k r.restoreStep

/-- The registers at the start of R102 and R103, for magnitudes already in 64-bit registers. -/
def DivRegs.start (n d : DWord) : DivRegs := { DivRegs.zero with n := n, d := d, bit := 1, phase := .align }

/-- R102 and R103 run to their end: (quotient, remainder). -/
def restoringDivide (w : DivWidth) (n d : DWord) : DWord × DWord :=
  let r := DivRegs.restoreLoop (w.top + 1) (DivRegs.alignLoop w w.top (.start n d))
  (r.q, r.n)

/-- `s` of R180: the number of alignment steps. -/
def alignSteps (w : DivWidth) (n d : DWord) : Nat := DivRegs.alignCount w w.top (.start n d)

/-! ### The divider's hidden registers -/

/-- Two's complement negation modulo `2^N` in a 64-bit register (R104). -/
def DivWidth.negate (w : DivWidth) (x : DWord) : DWord := w.trunc (-x)

/-- The registers a new divide starts from: the raw operands and the sign flags of a signed operation (R104). -/
def DivRegs.load (w : DivWidth) (signed : Bool) (a b : DWord) : DivRegs where
  n := w.trunc a
  d := w.trunc b
  bit := 1
  q := 0
  ns := signed && a.getLsbD w.top
  ds := signed && b.getLsbD w.top
  phase := .magnitude

/-- One edge of a divide in flight, as R180 counts them: one edge for the magnitudes, one for each alignment step,
one for each restoring iteration; then the pair waits for the edge that ends the request. DESIGN CHOICE
(notes/assumptions/13.md): with a zero denominator, for which R102 and R103 give no datapath, the registers move by the same
steps with `D = 0` until the request ends. -/
def DivRegs.tick (w : DivWidth) (r : DivRegs) : DivRegs :=
  let restored := r.restoreStep
  let iterate := { restored with phase := if restored.bit = 0 then .place else .restore }
  match r.phase with
  | .magnitude =>
    { r with n := if r.ns then w.negate r.n else r.n
             d := if r.ds then w.negate r.d else r.d
             phase := .align }
  | .align   => if r.canAlign w then r.alignStep w else iterate
  | .restore => iterate
  | .place   => r

/-! ### The half-word shifter (R134) -/

/-- The three shifts. -/
inductive ShiftKind where
  | left
  | right
  | arith
  deriving DecidableEq, Repr

/-- R134 for `0 <= k <= 63`, each case as its pseudocode has it. -/
def halfWordShift (kind : ShiftKind) (a : DWord) (k : Nat) : DWord :=
  let h := hi a
  let l := lo a
  let fill : Word := if h.getLsbD 31 then 0xFFFFFFFF else 0
  if k = 0 then a
  else if k < 32 then
    match kind with
    | .left  => assembleHalves ((h <<< k) ||| (l >>> (32 - k))) (l <<< k)
    | .right => assembleHalves (h >>> k) ((l >>> k) ||| (h <<< (32 - k)))
    | .arith => assembleHalves (bitsOf 32 (h.toInt / 2 ^ k)) ((l >>> k) ||| (h <<< (32 - k)))
  else
    let j := k - 32
    match kind with
    | .left  => assembleHalves (l <<< j) 0
    | .right => assembleHalves 0 (h >>> j)
    | .arith => assembleHalves fill (bitsOf 32 (h.toInt / 2 ^ j))

/-! ### The hidden state as a whole (R30) -/

/-- The width of a divide request: `op[3]` chooses between the two divide families (R61). -/
def Request.divWidth (r : Request) : DivWidth := if r.op.getLsbD 3 then .w64 else .w32

/-- "Every accept reinitialises this state from the new request" (R30). DESIGN CHOICE (notes/assumptions/13.md): the registers
of a block that the request does not use, for which R30 and R171 name no value, are set to 0. A reserved `op` counts by its
`op[3:2]`. -/
def Hidden.load (r : Request) (latency : Nat) : Hidden where
  div := match r.family with
    | .divide32 | .divide64 => .load (Request.divWidth r) r.isSigned r.a r.b
    | .multiply | .shift => .zero
  mul := match r.family with
    | .multiply => .load r.a r.b
    | .divide32 | .divide64 | .shift => .zero
  count := latency

/-- One edge of a request in flight that does not end it: the latency counter and the block in use. -/
def Hidden.tick (impl : MulImpl) (r : Request) (h : Hidden) : Hidden where
  div := match r.family with
    | .divide32 | .divide64 => h.div.tick (Request.divWidth r)
    | .multiply | .shift => h.div
  mul := match r.family with
    | .multiply => h.mul.tick impl r.a r.b
    | .divide32 | .divide64 | .shift => h.mul
  count := h.count - 1

/-- The hidden registers after a reset edge: unspecified (R34, R171), each a draw. -/
def Hidden.drawn (edge : Nat) : Hidden where
  div :=
    { n := Config.draw 64 (.hiddenReg 0) edge
      d := Config.draw 64 (.hiddenReg 1) edge
      bit := Config.draw 64 (.hiddenReg 2) edge
      q := Config.draw 64 (.hiddenReg 3) edge
      ns := (Config.draw 1 (.hiddenReg 4) edge).getLsbD 0
      ds := (Config.draw 1 (.hiddenReg 5) edge).getLsbD 0
      phase := match (Config.draw 1 (.hiddenReg 6) edge).getLsbD 0, (Config.draw 1 (.hiddenReg 7) edge).getLsbD 0 with
        | false, false => .magnitude
        | false, true  => .align
        | true,  false => .restore
        | true,  true  => .place }
  mul :=
    { pll := Config.draw 32 (.hiddenReg 8) edge
      phl := Config.draw 32 (.hiddenReg 9) edge
      plh := Config.draw 32 (.hiddenReg 10) edge
      phh := Config.draw 32 (.hiddenReg 11) edge
      t2 := Config.draw 32 (.hiddenReg 12) edge
      t3 := Config.draw 32 (.hiddenReg 13) edge
      c1 := Config.draw 32 (.hiddenReg 14) edge
      c2 := Config.draw 32 (.hiddenReg 15) edge
      acc := Config.draw 32 (.hiddenReg 16) edge
      x := Config.draw 32 (.hiddenReg 17) edge
      y := Config.draw 32 (.hiddenReg 18) edge }
  count := Config.drawLatency edge

end Sys2Proof.Machine
end

