-- ==== Sys2Proof/Machine/Ops.lean ====
section
/-!
DEFINITION. The named operations over the registers: what one rising edge of `clk` does in each of its cases
(10_state.md R26, R27, R34, R37; 60_exceptions.md R152). Every operation here is one whole edge: it takes the
input ports of that edge off `pins` and advances the index of the free values.
-/

namespace Sys2Proof.Machine

/-- The part common to every edge: the inputs of this edge are gone and the next draws are new. -/
def State.clock (s : State) : State := { s with pins := s.pins.tail, edge := s.edge + 1 }

/-- The latched request (R23), which the pseudocode calls `op`, `a` and `b` (R9). -/
def State.latched (s : State) : Request := ⟨s.opl, s.al, s.bl⟩

/-- The request on the input ports (R60). -/
def Pins.request (p : Pins) : Request := ⟨p.op, p.a, p.b⟩

/-- The draws of this edge that a request's rule may name (R9, R10). -/
def State.draws (s : State) : Draws where
  quotient  := Config.draw 32 .quotient s.edge
  remainder := Config.draw 32 .remainder s.edge
  shiftOut  := Config.draw 64 .shiftOut s.edge

/-- `complete(r, r2)` (R9): the edge that ends a request normally (R27). -/
def State.complete (s : State) (r r2 : DWord) : State :=
  { s.clock with
    res := .value r
    res2 := .value r2
    valid := true
    flt := false
    st := .idle
    hidden := { s.hidden with count := 0 } }

/-- `raise Fault(c)` (R9): the edge that ends a request in a fault (R152). CAUSE is written, FLT is 1, VALID is 0, STATE
is IDLE, RES and RES2 are unspecified, and the record that no later event clears has one more entry (R153).
There is no return operation: the next accept clears CAUSE (R156). -/
def State.raiseFault (s : State) (c : Fault) : State :=
  { s.clock with
    cause := c.code
    flt := true
    valid := false
    st := .idle
    res := .unspec
    res2 := .unspec
    faults := s.faults ++ [⟨s.accepts, c⟩]
    hidden := { s.hidden with count := 0 } }

/-- The edge that ends a request, by the outcome of `Exec` (R27). -/
def State.finish (s : State) : ExecResult → State
  | .ok r r2 => s.complete r r2
  | .fault c => s.raiseFault c

/-- An edge that neither accepts nor ends a request, with STATE idle (R37). -/
def State.idleEdge (s : State) : State := { s.clock with valid := false, flt := false }

/-- An edge before the request's latency has run out (R37); the hidden registers go on (R30). -/
def State.busyEdge (s : State) : State :=
  { s.clock with valid := false, flt := false, hidden := s.hidden.tick s.params.pMulImpl s.latched }

/-- The accept of a request whose latency is `latency` (R26). -/
def State.accept (s : State) (r : Request) (latency : Nat) : State :=
  { s.clock with
    opl := r.op
    al := r.a
    bl := r.b
    st := .busy
    valid := false
    flt := false
    cause := 0b00
    res := .unspec
    res2 := .unspec
    hidden := .load r latency
    accepts := s.accepts + 1 }

/-- An edge with `rst = 1` (R34, R170): it dominates every other event (R171). OPL, AL, BL and the hidden registers
become unspecified, so each is a draw. The record of faults stays (R153). -/
def State.resetEdge (s : State) : State :=
  { s.clock with
    st := .idle
    res := .value 0
    res2 := .value 0
    cause := 0b00
    valid := false
    flt := false
    opl := Config.draw 4 .latchOp s.edge
    al := Config.draw 64 .latchA s.edge
    bl := Config.draw 64 .latchB s.edge
    hidden := .drawn s.edge }

/-- `s` with a request accepted and due to end at the very next edge, at which `rst = 0` and nothing is offered: what it
takes for the next step to run that request (notes/assumptions/14.md). -/
def State.placeRequest (s : State) (r : Request) : State :=
  { s.accept r 1 with pins := ⟨false, false, 0, 0, 0⟩ :: s.pins, edge := s.edge }

end Sys2Proof.Machine
end

