-- ==== Sys2Proof/Machine/Divide.lean ====
section
/-!
DEFINITION. The divide family (41_divide.md): the shared definitions R101 to R109, then the eight operations.
-/

namespace Sys2Proof.Machine

/-- `udivmod_N(n, d)` for a denominator that is not zero (R101). -/
def udivmod {w : Nat} (n d : BitVec w) : BitVec w × BitVec w :=
  let q := BitVec.ofNat w (n.toNat / d.toNat)
  (q, BitVec.ofNat w (n.toNat - d.toNat * q.toNat))

/-- `neg_N(v)`: two's complement negation modulo `2^N` (R104). -/
def negate {w : Nat} (v : BitVec w) : BitVec w := BitVec.ofNat w (2 ^ w - v.toNat)

/-- `sdivmod_N(n, d)`, the sign wrapper (R104). -/
def sdivmod {w : Nat} (n d : BitVec w) : BitVec w × BitVec w :=
  let ns := n.msb
  let ds := d.msb
  let u := udivmod (if ns then negate n else n) (if ds then negate d else d)
  (if ns ^^ ds then negate u.1 else u.1, if ns then negate u.2 else u.2)

/-- The mode bit `M = op[0]`: which member of the pair the request asks for (R61, R66). -/
inductive Member where
  | quotient
  | remainder
  deriving DecidableEq, Repr

/-- `place64(q, r, M)` (R106). -/
def place64 (m : Member) (p : DWord × DWord) : ExecResult :=
  match m with
  | .quotient  => .ok p.1 p.2
  | .remainder => .ok p.2 p.1

/-- `place32(q, r, M)` (R106): both members zero-extended (R64). -/
def place32 (m : Member) (p : Word × Word) : ExecResult := place64 m (zext64 p.1, zext64 p.2)

/-- `div0_32(M)` (R108). -/
def div0_32 (policy : Div0Policy) (dr : Draws) (m : Member) : ExecResult :=
  match policy with
  | .draw  => place32 m (dr.quotient, dr.remainder)
  | .fault => .fault .divZero

/-- A 32-bit divide by `f`: the zero test of R107 reads `b[31:0]` only. -/
def divide32 (f : Word → Word → Word × Word) (m : Member) (p : Params) (dr : Draws) (a b : DWord) : ExecResult :=
  if lo b = 0 then div0_32 p.pDiv0_32 dr m else place32 m (f (lo a) (lo b))

/-- A 64-bit divide by `f`: the zero test of R107 reads all of `b`; a zero denominator faults (R109). -/
def divide64 (f : DWord → DWord → DWord × DWord) (m : Member) (a b : DWord) : ExecResult :=
  if b = 0 then .fault .divZero else place64 m (f a b)

/-- R110. -/
def resultDivu32 (p : Params) (dr : Draws) (a b : DWord) : ExecResult := divide32 udivmod .quotient p dr a b

/-- R111. -/
def resultRemu32 (p : Params) (dr : Draws) (a b : DWord) : ExecResult := divide32 udivmod .remainder p dr a b

/-- R112. -/
def resultDiv32 (p : Params) (dr : Draws) (a b : DWord) : ExecResult := divide32 sdivmod .quotient p dr a b

/-- R113. -/
def resultRem32 (p : Params) (dr : Draws) (a b : DWord) : ExecResult := divide32 sdivmod .remainder p dr a b

/-- R114. -/
def resultDivu64 (a b : DWord) : ExecResult := divide64 udivmod .quotient a b

/-- R115. -/
def resultRemu64 (a b : DWord) : ExecResult := divide64 udivmod .remainder a b

/-- R116. -/
def resultDiv64 (a b : DWord) : ExecResult := divide64 sdivmod .quotient a b

/-- R117. -/
def resultRem64 (a b : DWord) : ExecResult := divide64 sdivmod .remainder a b

/-- DIVU32 (R110). -/
def execDivu32 (a b : DWord) (s : State) : Host.Outcome State Fault Refusal :=
  .next (s.finish (resultDivu32 s.params s.draws a b))

/-- REMU32 (R111). -/
def execRemu32 (a b : DWord) (s : State) : Host.Outcome State Fault Refusal :=
  .next (s.finish (resultRemu32 s.params s.draws a b))

/-- DIV32 (R112). -/
def execDiv32 (a b : DWord) (s : State) : Host.Outcome State Fault Refusal :=
  .next (s.finish (resultDiv32 s.params s.draws a b))

/-- REM32 (R113). -/
def execRem32 (a b : DWord) (s : State) : Host.Outcome State Fault Refusal :=
  .next (s.finish (resultRem32 s.params s.draws a b))

/-- DIVU64 (R114). -/
def execDivu64 (a b : DWord) (s : State) : Host.Outcome State Fault Refusal :=
  .next (s.finish (resultDivu64 a b))

/-- REMU64 (R115). -/
def execRemu64 (a b : DWord) (s : State) : Host.Outcome State Fault Refusal :=
  .next (s.finish (resultRemu64 a b))

/-- DIV64 (R116). -/
def execDiv64 (a b : DWord) (s : State) : Host.Outcome State Fault Refusal :=
  .next (s.finish (resultDiv64 a b))

/-- REM64 (R117). -/
def execRem64 (a b : DWord) (s : State) : Host.Outcome State Fault Refusal :=
  .next (s.finish (resultRem64 a b))

end Sys2Proof.Machine
end

