-- ==== Sys2Proof/Machine/Multiply.lean ====
section
/-!
DEFINITION. The multiply family (40_multiply.md). The results are normative, the structure is not (R80).
-/

namespace Sys2Proof.Machine

/-- R81: the low 32 bits of the product of the low words. -/
def resultMul32 (a b : DWord) : ExecResult :=
  .ok (zext64 (BitVec.ofNat 32 ((lo a).toNat * (lo b).toNat))) 0

/-- R83: the exact product of the low words. -/
def resultMulwu (a b : DWord) : ExecResult :=
  .ok (BitVec.ofNat 64 ((lo a).toNat * (lo b).toNat)) 0

/-- R85: the low 64 bits of the product. -/
def resultMul64 (a b : DWord) : ExecResult :=
  .ok (BitVec.ofNat 64 (a.toNat * b.toNat)) 0

/-- MUL32 (R81). -/
def execMul32 (a b : DWord) (s : State) : Host.Outcome State Fault Refusal :=
  .next (s.finish (resultMul32 a b))

/-- MULWU (R83). -/
def execMulwu (a b : DWord) (s : State) : Host.Outcome State Fault Refusal :=
  .next (s.finish (resultMulwu a b))

/-- MUL64 (R85). -/
def execMul64 (a b : DWord) (s : State) : Host.Outcome State Fault Refusal :=
  .next (s.finish (resultMul64 a b))

end Sys2Proof.Machine
end

