-- ==== Sys2Proof/Machine/Reserved.lean ====
section
/-!
DEFINITION. The two reserved values of `op` (30_encoding.md R65): CORE accepts the request, which then ends in
`raise Fault(ILLEGAL_OP)`. Neither operand is read (R67).
-/

namespace Sys2Proof.Machine

/-- RESERVED_0011 (R65). -/
def execReserved0011 (s : State) : Host.Outcome State Fault Refusal :=
  .next (s.finish (.fault .illegalOp))

/-- RESERVED_1111 (R65). -/
def execReserved1111 (s : State) : Host.Outcome State Fault Refusal :=
  .next (s.finish (.fault .illegalOp))

end Sys2Proof.Machine
end

