-- ==== Sys2Proof/Machine/Shift.lean ====
section
/-!
DEFINITION. The shift family (42_shift.md).
-/

namespace Sys2Proof.Machine

/-- A shift by the count of R63 where the count is below 64; else `shift_out_of_range()`, a draw and no fault (R135).
`RES2` is 0 in both (R66). -/
def shiftBy (f : DWord → Nat → DWord) (dr : Draws) (a b : DWord) : ExecResult :=
  if shiftCount b ≥ 64 then .ok dr.shiftOut 0 else .ok (f a (shiftCount b)) 0

/-- `bits_64(u(a) * 2^k)` (R131). -/
def shiftLeft (a : DWord) (k : Nat) : DWord := BitVec.ofNat 64 (a.toNat * 2 ^ k)

/-- `bits_64(floor(u(a) / 2^k))` (R132). -/
def shiftRight (a : DWord) (k : Nat) : DWord := BitVec.ofNat 64 (a.toNat / 2 ^ k)

/-- `bits_64(floor(s(a) / 2^k))` (R133): integer division by a positive number rounds down. -/
def shiftArith (a : DWord) (k : Nat) : DWord := bitsOf 64 (a.toInt / 2 ^ k)

/-- R131. -/
def resultSll64 (dr : Draws) (a b : DWord) : ExecResult := shiftBy shiftLeft dr a b

/-- R132. -/
def resultSrl64 (dr : Draws) (a b : DWord) : ExecResult := shiftBy shiftRight dr a b

/-- R133. -/
def resultSra64 (dr : Draws) (a b : DWord) : ExecResult := shiftBy shiftArith dr a b

/-- SLL64 (R131). -/
def execSll64 (a b : DWord) (s : State) : Host.Outcome State Fault Refusal :=
  .next (s.finish (resultSll64 s.draws a b))

/-- SRL64 (R132). -/
def execSrl64 (a b : DWord) (s : State) : Host.Outcome State Fault Refusal :=
  .next (s.finish (resultSrl64 s.draws a b))

/-- SRA64 (R133). -/
def execSra64 (a b : DWord) (s : State) : Host.Outcome State Fault Refusal :=
  .next (s.finish (resultSra64 s.draws a b))

end Sys2Proof.Machine
end

