-- ==== Sys2Proof/Machine/Dispatch.lean ====
section
/-!
DEFINITION. `exec`: the edge that ends each request (R27), one arm for each constructor of `Instr` (R71).
-/

namespace Sys2Proof.Machine

def exec (i : Instr) (s : State) : Host.Outcome State Fault Refusal :=
  match i with
  | .mul32 a b => Sys2Proof.Machine.execMul32 a b s
  | .mulwu a b => Sys2Proof.Machine.execMulwu a b s
  | .mul64 a b => Sys2Proof.Machine.execMul64 a b s
  | .divu32 a b => Sys2Proof.Machine.execDivu32 a b s
  | .remu32 a b => Sys2Proof.Machine.execRemu32 a b s
  | .div32 a b => Sys2Proof.Machine.execDiv32 a b s
  | .rem32 a b => Sys2Proof.Machine.execRem32 a b s
  | .divu64 a b => Sys2Proof.Machine.execDivu64 a b s
  | .remu64 a b => Sys2Proof.Machine.execRemu64 a b s
  | .div64 a b => Sys2Proof.Machine.execDiv64 a b s
  | .rem64 a b => Sys2Proof.Machine.execRem64 a b s
  | .sll64 a b => Sys2Proof.Machine.execSll64 a b s
  | .srl64 a b => Sys2Proof.Machine.execSrl64 a b s
  | .sra64 a b => Sys2Proof.Machine.execSra64 a b s
  | .reserved0011 _ _ => Sys2Proof.Machine.execReserved0011 s
  | .reserved1111 _ _ => Sys2Proof.Machine.execReserved1111 s

end Sys2Proof.Machine
end

