-- ==== Sys2Proof/Machine/Clock.lean ====
section
/-!
DEFINITION. Which operation a rising edge is (10_state.md R26, R27, R37; 70_reset_and_hazards.md R171), and the latency a
request gets at its accept (R180).
-/

namespace Sys2Proof.Machine

/-- The cause with which a request ends in a fault, if it does (R150): the two reserved values, the 64-bit divides by
zero, and the 32-bit divides by zero when `P_DIV0_32 = FAULT`. -/
def faultCause (p : Params) : Instr → Option Fault
  | .reserved0011 _ _ | .reserved1111 _ _ => some .illegalOp
  | .divu32 _ b | .remu32 _ b | .div32 _ b | .rem32 _ b =>
    if lo b = 0 ∧ p.pDiv0_32 = .fault then some .divZero else none
  | .divu64 _ b | .remu64 _ b | .div64 _ b | .rem64 _ b => if b = 0 then some .divZero else none
  | .mul32 _ _ | .mulwu _ _ | .mul64 _ _ | .sll64 _ _ | .srl64 _ _ | .sra64 _ _ => none

/-- A latency is at least 1 (R180: `L >= 1`). A parameter of 0 counts as 1 (notes/assumptions/18.md). -/
def atLeastOne (n : Nat) : Nat := max 1 n

/-- The maximum latency of a request (R180). -/
def maxLatency (p : Params) (r : Request) : Nat :=
  atLeastOne <|
    if (faultCause p (decode r)).isSome then p.pLatFault
    else match r.family with
      | .multiply => p.pLatMul
      | .divide32 => p.pLatDiv32Max
      | .divide64 => p.pLatDiv64Max
      | .shift    => p.pLatShift

/-- The reference latency of a divide (R180): `2 + s + (s + 1)`, with `s` counted on the magnitudes. -/
def referenceDivLatency (r : Request) : Nat :=
  let w := Request.divWidth r
  let m := (DivRegs.load w r.isSigned r.a r.b).tick w
  let s := alignSteps w m.n m.d
  2 + s + (s + 1)

/-- The latency of a request (R180). A divide by zero that completes has no reference count, "the same bound as a 32-bit
divide": its latency is drawn. -/
def requestLatency (p : Params) (r : Request) (edge : Nat) : Nat :=
  let top := maxLatency p r
  let drawn := 1 + Config.drawLatency edge % top
  if (faultCause p (decode r)).isSome then top
  else match r.family with
    | .multiply | .shift => top
    | .divide32 | .divide64 =>
      match p.divLatency with
      | .drawn => drawn
      | .reference => if lo r.b = 0 ∧ r.family = .divide32 then drawn else min top (referenceDivLatency r)

/-- One rising edge. `rst = 1` dominates (R171); an idle CORE accepts what is offered (R26); a busy one ends its request
when the latency has run out (R27), which is the edge `exec` describes; every other edge is R37's. -/
def clockEdge (s : State) : Host.Outcome State Fault Refusal :=
  if s.input.rst then .next s.resetEdge
  else match s.st with
    | .idle =>
      if s.input.inValid then
        .next (s.accept s.input.request (requestLatency s.params s.input.request s.edge))
      else .next s.idleEdge
    | .busy => if s.hidden.count ≤ 1 then exec (decode s.latched) s else .next s.busyEdge

end Sys2Proof.Machine
end

