-- ==== Sys2Proof/Machine/Step.lean ====
section
/-!
DEFINITION. The step of the machine: one rising edge of `clk` (R20).
-/

namespace Sys2Proof.Machine

/-- One rising edge of `clk`. -/
def step (s : State) : Host.Outcome State Fault Refusal := clockEdge s

/-- `s` with the request of an opcode-table word accepted and due to end at the next step. CORE fetches nothing (R22): a
request comes from the requester, and this stands for its accept (notes/assumptions/14.md). -/
def State.withFetchWord (s : State) (nbits w : Nat) : State := s.placeRequest (Request.ofTableWord nbits w)

end Sys2Proof.Machine
end

