-- ==== Sys2Proof/Machine/Transaction.lean ====
section
/-!
DEFINITION. The transaction-level model of 10_state.md R35, "exact for every result and every fault": its state, its
events, what they emit, and how a clocked machine is read as one of them. Nothing of the machine reads this file.
-/

namespace Sys2Proof.Machine

/-- The outcome of a decoded request (R10), from its arguments, the parameters and the draws alone. -/
def resultOf (p : Params) (dr : Draws) : Instr → ExecResult
  | .mul32 a b => resultMul32 a b
  | .mulwu a b => resultMulwu a b
  | .mul64 a b => resultMul64 a b
  | .divu32 a b => resultDivu32 p dr a b
  | .remu32 a b => resultRemu32 p dr a b
  | .div32 a b => resultDiv32 p dr a b
  | .rem32 a b => resultRem32 p dr a b
  | .divu64 a b => resultDivu64 a b
  | .remu64 a b => resultRemu64 a b
  | .div64 a b => resultDiv64 a b
  | .rem64 a b => resultRem64 a b
  | .sll64 a b => resultSll64 dr a b
  | .srl64 a b => resultSrl64 dr a b
  | .sra64 a b => resultSra64 dr a b
  | .reserved0011 _ _ => .fault .illegalOp
  | .reserved1111 _ _ => .fault .illegalOp

/-- `Exec(op, a, b, draws)` (R10, R35, R71). -/
def execRequest (p : Params) (dr : Draws) (r : Request) : ExecResult := resultOf p dr (decode r)

/-- The state of R35. -/
structure TState where
  st    : Status
  opl   : OpField
  al    : DWord
  bl    : DWord
  res   : ResultReg
  res2  : ResultReg
  cause : BitVec 2
  deriving DecidableEq, Repr

/-- The events of R35. A reset leaves the latches unspecified (R34): `latches` is what they then hold. -/
inductive TEvent where
  | reset (latches : Request)
  | accept (r : Request)
  | finish (draws : Draws)
  | tick
  deriving DecidableEq, Repr

/-- What an event emits (R35). -/
inductive Emitted where
  | completed (r r2 : DWord)
  | faulted (c : Fault)
  deriving DecidableEq, Repr

/-- An event of R35, none where its `requires` line does not hold. -/
def TState.apply (p : Params) (e : TEvent) (s : TState) : Option (TState × Option Emitted) :=
  match e with
  | .reset l =>
    some ({ st := .idle, opl := l.op, al := l.a, bl := l.b, res := .value 0, res2 := .value 0, cause := 0b00 }, none)
  | .accept r =>
    if s.st = .idle then
      some ({ st := .busy, opl := r.op, al := r.a, bl := r.b, res := .unspec, res2 := .unspec, cause := 0b00 }, none)
    else none
  | .finish dr =>
    if s.st = .busy then
      match execRequest p dr ⟨s.opl, s.al, s.bl⟩ with
      | .ok r r2 => some ({ s with st := .idle, res := .value r, res2 := .value r2 }, some (.completed r r2))
      | .fault c => some ({ s with st := .idle, res := .unspec, res2 := .unspec, cause := c.code }, some (.faulted c))
    else none
  | .tick => some (s, none)

/-- The machine as a state of R35. -/
def State.abstract (s : State) : TState where
  st    := s.st
  opl   := s.opl
  al    := s.al
  bl    := s.bl
  res   := s.res
  res2  := s.res2
  cause := s.cause

/-- The event of R35 that the coming edge is. -/
def State.event (s : State) : TEvent :=
  if s.input.rst then .reset s.resetEdge.latched
  else match s.st with
    | .idle => if s.input.inValid then .accept s.input.request else .tick
    | .busy => if s.hidden.count ≤ 1 then .finish s.draws else .tick

/-- What the outputs `out_valid` and `fault` report in this cycle. -/
def State.emitted (s : State) : Option Emitted :=
  if s.valid then
    match s.res, s.res2 with
    | .value r, .value r2 => some (.completed r r2)
    | _, _ => none
  else if s.flt then
    match s.causeName with
    | .ok (some c) => some (.faulted c)
    | _ => none
  else none

end Sys2Proof.Machine
end

