-- ==== Sys2Proof/Safety.lean ====
section
/-!
DEFINITION. The terms of the claims: the invariant of the machine, what a request reads, what counts as the end of a
request, and two states that differ in hidden registers only.
-/

namespace Sys2Proof.Safety

open Sys2Proof.Machine

/-- What holds of every state a run reaches. -/
structure Inv (s : State) : Prop where
  /-- The reserved code is never in CAUSE (R150). -/
  cause_known : s.cause ≠ 0b11
  /-- While a request is in flight (R26). -/
  busy_clean : s.st = .busy →
    s.valid = false ∧ s.flt = false ∧ s.cause = 0b00 ∧ s.res = .unspec ∧ s.res2 = .unspec
  /-- The latency counter stays within the maximum of the latched request (R180, R181). -/
  busy_count : s.st = .busy → 1 ≤ s.hidden.count ∧ s.hidden.count ≤ maxLatency s.params s.latched
  /-- `out_valid` reports a normal completion (R27). -/
  valid_clean : s.valid = true → s.flt = false ∧ s.cause = 0b00
  /-- `fault` comes with its cause (R152). -/
  flt_caused : s.flt = true → s.cause ≠ 0b00
  /-- Outside a request, results are defined unless the last one faulted (R29). -/
  idle_defined : s.st = .idle → s.cause = 0b00 → (∃ v, s.res = .value v) ∧ ∃ v, s.res2 = .value v
  /-- A cause is that of the last entry of the record, for the latest request (R150, R153), and results are unspecified. -/
  cause_recorded : s.cause ≠ 0b00 →
    s.res = .unspec ∧ s.res2 = .unspec ∧
      ∃ c : Fault, s.cause = c.code ∧ s.faults.getLast? = some ⟨s.accepts, c⟩
  /-- No request has two entries, and entries stand in the order of acceptance (R27, R48). -/
  record_ordered : s.faults.Pairwise (·.request < ·.request)
  /-- An entry belongs to a request that was accepted, and that is no longer in flight (R27). -/
  record_past : ∀ f ∈ s.faults, f.request ≤ s.accepts ∧ (s.st = .busy → f.request < s.accepts)

/-- A request has ended: IDLE, and exactly one of `out_valid` and `fault` (R27). -/
def Ended (s : State) : Prop := s.st = .idle ∧ (s.valid ^^ s.flt) = true

/-- The request with every bit that its operation does not read cleared (R63, R67). -/
def readPart : Instr → Instr
  | .mul32 a b => .mul32 (zext64 (lo a)) (zext64 (lo b))
  | .mulwu a b => .mulwu (zext64 (lo a)) (zext64 (lo b))
  | .mul64 a b => .mul64 a b
  | .divu32 a b => .divu32 (zext64 (lo a)) (zext64 (lo b))
  | .remu32 a b => .remu32 (zext64 (lo a)) (zext64 (lo b))
  | .div32 a b => .div32 (zext64 (lo a)) (zext64 (lo b))
  | .rem32 a b => .rem32 (zext64 (lo a)) (zext64 (lo b))
  | .divu64 a b => .divu64 a b
  | .remu64 a b => .remu64 a b
  | .div64 a b => .div64 a b
  | .rem64 a b => .rem64 a b
  | .sll64 a b => .sll64 a (zext64 (lo b))
  | .srl64 a b => .srl64 a (zext64 (lo b))
  | .sra64 a b => .sra64 a (zext64 (lo b))
  | .reserved0011 _ _ => .reserved0011 0 0
  | .reserved1111 _ _ => .reserved1111 0 0

/-- The same machine with other datapath registers and another multiplier structure: what no port may show (R30, R80). -/
def withDatapath (s : State) (d : DivRegs) (m : MulRegs) (impl : MulImpl) : State :=
  { s with hidden := { s.hidden with div := d, mul := m }, params := { s.params with pMulImpl := impl } }

/-- The same machine with other latches and hidden registers. -/
def withLatches (s : State) (r : Request) (h : Hidden) : State :=
  { s with opl := r.op, al := r.a, bl := r.b, hidden := h }

/-- What a 32-bit divide or remainder by zero does, by `P_DIV0_32` (R108). -/
def ZeroDenominator32 (i : Instr) (s : State) : Prop :=
  match s.params.pDiv0_32 with
  | .draw  => ∃ q r : Word, exec i s = .next (s.complete (q.setWidth 64) (r.setWidth 64))
  | .fault => exec i s = .next (s.raiseFault .divZero)

/-- `k` edges, as the host runs them. -/
def runEdges (k : Nat) (s : State) : Host.Outcome State Fault Refusal :=
  match k with
  | 0 => .next s
  | k + 1 =>
    match step s with
    | .next t => runEdges k t
    | .fault r => .fault r
    | .refused r => .refused r

end Sys2Proof.Safety
end

