-- ==== Sys2Proof/Certificates/Slice0/Obligations.lean ====
section
/-!
DEFINITION. The statements for the provers. `x.extractLsb' 0 32` is `x[31:0]`, `toNat` reads unsigned, `toInt`
two's complement, and `setWidth 64` zero-extends (R7, R8).
-/

open Sys2Proof Sys2Proof.Machine Sys2Proof.Safety

/-! ### Encoding -/

/-- R62, all 16 values of `op`. -/
def Obligations.OpcodeMapDecodes : Prop :=
  ∀ a b : DWord,
    decode ⟨0b0000, a, b⟩ = .mul32 a b ∧ decode ⟨0b0001, a, b⟩ = .mulwu a b ∧
    decode ⟨0b0010, a, b⟩ = .mul64 a b ∧ decode ⟨0b0011, a, b⟩ = .reserved0011 a b ∧
    decode ⟨0b0100, a, b⟩ = .divu32 a b ∧ decode ⟨0b0101, a, b⟩ = .remu32 a b ∧
    decode ⟨0b0110, a, b⟩ = .div32 a b ∧ decode ⟨0b0111, a, b⟩ = .rem32 a b ∧
    decode ⟨0b1000, a, b⟩ = .divu64 a b ∧ decode ⟨0b1001, a, b⟩ = .remu64 a b ∧
    decode ⟨0b1010, a, b⟩ = .div64 a b ∧ decode ⟨0b1011, a, b⟩ = .rem64 a b ∧
    decode ⟨0b1100, a, b⟩ = .sll64 a b ∧ decode ⟨0b1101, a, b⟩ = .srl64 a b ∧
    decode ⟨0b1110, a, b⟩ = .sra64 a b ∧ decode ⟨0b1111, a, b⟩ = .reserved1111 a b

/-- Words written out by hand from the encodings of 95_test_vectors.md. The order of the fields in a word is the model's
(notes/assumptions/2.md): `b`, then `a`, then `op` in the lowest digit. -/
def Obligations.SampleWordsDecode : Prop :=
  decodeWord 0x000000000000000200000000FFFFFFFF0 = .instr (.mul32 0xFFFFFFFF 2) ∧
  decodeWord 0x000000000000000200000000FFFFFFF96 = .instr (.div32 0xFFFFFFF9 2) ∧
  decodeWord 0x000000000000000300000001000000008 = .instr (.divu64 0x100000000 3) ∧
  decodeWord 0x00000000000000200000000100000001C = .instr (.sll64 0x100000001 32) ∧
  decodeWord 0x000000000000000200000000000000013 = .instr (.reserved0011 1 2) ∧
  decodeWord 0x1000000000000000000000000000000000 = .rejected .notARequest

/-- Every instruction, with every operand, is read back from its word (R60, R62, R71). -/
def Obligations.DecodeOfEncode : Prop :=
  ∀ i : Instr, encodeWord i < 2 ^ 132 ∧ decodeWord (encodeWord i) = .instr i

/-- Every 132-bit number is the word of exactly the instruction it decodes to; a wider number is refused (R60, R71). -/
def Obligations.EncodeOfDecode : Prop :=
  (∀ w : Nat, w < 2 ^ 132 → ∃ i, decodeWord w = .instr i ∧ encodeWord i = w) ∧
  ∀ w : Nat, 2 ^ 132 ≤ w → decodeWord w = .rejected .notARequest

/-- R69: what the literals of an assembly line put on the ports. For MULWU the width is the model's reading
(notes/assumptions/16.md). -/
def Obligations.AssemblyReducesLiterals : Prop :=
  ∀ (m : String) (op : OpField) (x y : Int), mnemonics.lookup m = some op →
    ∃ r, assemble (.op m x y) = some r ∧ r.op = op ∧
      (r.a.toNat : Int) = x % (if op.readsWords then 2 ^ 32 else 2 ^ 64) ∧
      (r.b.toNat : Int) = y % (if op.readsWords || op.readsCount then 2 ^ 32 else 2 ^ 64)

/-- R67: "Bits an operation does not read are ignored." -/
def Obligations.UnreadBitsNeverMatter : Prop :=
  ∀ (i : Instr) (s : State), exec (readPart i) s = exec i s

/-! ### Multiply family -/

/-- R81. -/
def Obligations.Mul32CompletesWithLowProduct : Prop :=
  ∀ a b : DWord, decode ⟨0b0000, a, b⟩ = .mul32 a b ∧
    ∀ s : State, exec (.mul32 a b) s = .next (s.complete
      ((BitVec.ofNat 32 ((a.extractLsb' 0 32).toNat * (b.extractLsb' 0 32).toNat)).setWidth 64) 0)

/-- R83: the result is the product itself, not the product modulo anything. -/
def Obligations.MulwuCompletesWithExactProduct : Prop :=
  ∀ a b : DWord, decode ⟨0b0001, a, b⟩ = .mulwu a b ∧
    ∀ s : State, ∃ p : DWord, exec (.mulwu a b) s = .next (s.complete p 0) ∧
      p.toNat = (a.extractLsb' 0 32).toNat * (b.extractLsb' 0 32).toNat

/-- R85. -/
def Obligations.Mul64CompletesWithLowProduct : Prop :=
  ∀ a b : DWord, decode ⟨0b0010, a, b⟩ = .mul64 a b ∧
    ∀ s : State, exec (.mul64 a b) s = .next (s.complete (BitVec.ofNat 64 (a.toNat * b.toNat)) 0)

/-- R81 and R86: the low bits of a product are the same for signed operands; MUL64 is commutative; the low word of MULWU
is MUL32's result (R83). -/
def Obligations.LowProductsIgnoreSign : Prop :=
  ∀ (a b : DWord) (s : State),
    exec (.mul32 a b) s = .next (s.complete
      ((BitVec.ofInt 32 ((a.extractLsb' 0 32).toInt * (b.extractLsb' 0 32).toInt)).setWidth 64) 0) ∧
    exec (.mul64 a b) s = .next (s.complete (BitVec.ofInt 64 (a.toInt * b.toInt)) 0) ∧
    exec (.mul64 a b) s = exec (.mul64 b a) s ∧
    ∃ p : DWord, exec (.mulwu a b) s = .next (s.complete p 0) ∧
      exec (.mul32 a b) s = .next (s.complete ((p.extractLsb' 0 32).setWidth 64) 0)

/-- R84: the half-word pipeline loses no carry, although each of its registers has 32 bits. -/
def Obligations.HalfWordMultiplyIsExact : Prop :=
  ∀ x y : Word, (halfWordMultiply x y).toNat = x.toNat * y.toNat

/-- R80, R82, R87: the three structures of `P_MUL_IMPL` give MUL32's result, and Booth and Wallace the whole product. R87
comes from general knowledge, and the Wallace tree's rows, their order and grouping are the model's (notes/assumptions/20.md). -/
def Obligations.MultiplierStructuresConform : Prop :=
  (∀ (impl : MulImpl) (x y : Word), mul32Structure impl x y = BitVec.ofNat 32 (x.toNat * y.toNat)) ∧
  ∀ x y : Word, (boothMultiply x y).toNat = x.toNat * y.toNat ∧ (wallaceMultiply x y).toNat = x.toNat * y.toNat

/-- R86: the composition gives MUL64's result, with every multiplier structure. -/
def Obligations.ComposedMultiplyIsMul64 : Prop :=
  ∀ (impl : MulImpl) (a b : DWord), composeMultiply impl a b = BitVec.ofNat 64 (a.toNat * b.toNat)

/-- R84, R86, R180: from the second edge after its accept until it ends, a multiply in flight has stage registers that
add up to MULWU's product, and with the cross products to MUL64's result. `k` counts the edges, the accept as the first. Which
edge fills which stage is the model's (notes/assumptions/13.md). -/
def Obligations.MultiplyPipelineHoldsProduct : Prop :=
  ∀ (s : State) (k : Nat), s.st = .idle → s.input.inValid = true →
    s.input.op ∈ [0b0000#4, 0b0001#4, 0b0010#4] → 3 ≤ k → k ≤ requestLatency s.params s.input.request s.edge →
    (∀ p ∈ s.pins.take k, p.rst = false) →
    ∃ t, runEdges k s = .next t ∧ t.st = .busy ∧ t.latched = s.input.request ∧
      t.hidden.mul.highSum.toNat = (s.input.a.extractLsb' 0 32).toNat * (s.input.b.extractLsb' 0 32).toNat ∧
      assembleHalves (hi t.hidden.mul.highSum + t.hidden.mul.c1 + t.hidden.mul.c2) (lo t.hidden.mul.highSum) =
        BitVec.ofNat 64 (s.input.a.toNat * s.input.b.toNat)

/-! ### Divide family -/

/-- R101, at every width: the division identity. -/
def Obligations.UnsignedDivisionIdentity : Prop :=
  ∀ (w : Nat) (n d : BitVec w), d ≠ 0 →
    (udivmod n d).1.toNat = n.toNat / d.toNat ∧
    n.toNat = d.toNat * (udivmod n d).1.toNat + (udivmod n d).2.toNat ∧
    (udivmod n d).2.toNat < d.toNat ∧ (udivmod n d).1.toNat ≤ n.toNat

/-- R105: the rows of the table of signed corner cases, at both widths. -/
def Obligations.SignedCornerCases : Prop :=
  (∀ n : Word, sdivmod n (-1) = (-n, 0) ∧ sdivmod n 1 = (n, 0)) ∧
  (∀ n : DWord, sdivmod n (-1) = (-n, 0) ∧ sdivmod n 1 = (n, 0)) ∧
  sdivmod 0x80000000#32 (-1) = (0x80000000#32, 0) ∧
  sdivmod 0x8000000000000000#64 (-1) = (0x8000000000000000#64, 0) ∧
  (∀ n d : Word, n.toInt.natAbs < d.toInt.natAbs → sdivmod n d = (0, n)) ∧
  ∀ n d : DWord, n.toInt.natAbs < d.toInt.natAbs → sdivmod n d = (0, n)

/-- R110. -/
def Obligations.Divu32GivesQuotientAndRemainder : Prop :=
  ∀ (a b : DWord), decode ⟨0b0100, a, b⟩ = .divu32 a b ∧
    ∀ (s : State) (n d : Word), n = a.extractLsb' 0 32 → d = b.extractLsb' 0 32 →
      (d ≠ 0 → exec (.divu32 a b) s = .next (s.complete
        ((BitVec.ofNat 32 (n.toNat / d.toNat)).setWidth 64) ((BitVec.ofNat 32 (n.toNat % d.toNat)).setWidth 64))) ∧
      (d = 0 → ZeroDenominator32 (.divu32 a b) s)

/-- R111. -/
def Obligations.Remu32GivesRemainderAndQuotient : Prop :=
  ∀ (a b : DWord), decode ⟨0b0101, a, b⟩ = .remu32 a b ∧
    ∀ (s : State) (n d : Word), n = a.extractLsb' 0 32 → d = b.extractLsb' 0 32 →
      (d ≠ 0 → exec (.remu32 a b) s = .next (s.complete
        ((BitVec.ofNat 32 (n.toNat % d.toNat)).setWidth 64) ((BitVec.ofNat 32 (n.toNat / d.toNat)).setWidth 64))) ∧
      (d = 0 → ZeroDenominator32 (.remu32 a b) s)

/-- R112, with R105's truncating quotient. -/
def Obligations.Div32GivesTruncatingQuotient : Prop :=
  ∀ (a b : DWord), decode ⟨0b0110, a, b⟩ = .div32 a b ∧
    ∀ (s : State) (n d : Word), n = a.extractLsb' 0 32 → d = b.extractLsb' 0 32 →
      (d ≠ 0 → exec (.div32 a b) s = .next (s.complete
        ((BitVec.ofInt 32 (n.toInt.tdiv d.toInt)).setWidth 64) ((BitVec.ofInt 32 (n.toInt.tmod d.toInt)).setWidth 64))) ∧
      (d = 0 → ZeroDenominator32 (.div32 a b) s)

/-- R113. -/
def Obligations.Rem32GivesTruncatingRemainder : Prop :=
  ∀ (a b : DWord), decode ⟨0b0111, a, b⟩ = .rem32 a b ∧
    ∀ (s : State) (n d : Word), n = a.extractLsb' 0 32 → d = b.extractLsb' 0 32 →
      (d ≠ 0 → exec (.rem32 a b) s = .next (s.complete
        ((BitVec.ofInt 32 (n.toInt.tmod d.toInt)).setWidth 64) ((BitVec.ofInt 32 (n.toInt.tdiv d.toInt)).setWidth 64))) ∧
      (d = 0 → ZeroDenominator32 (.rem32 a b) s)

/-- R114. -/
def Obligations.Divu64GivesQuotientAndRemainder : Prop :=
  ∀ a b : DWord, decode ⟨0b1000, a, b⟩ = .divu64 a b ∧
    ∀ s : State,
      (b ≠ 0 → exec (.divu64 a b) s = .next (s.complete
        (BitVec.ofNat 64 (a.toNat / b.toNat)) (BitVec.ofNat 64 (a.toNat % b.toNat)))) ∧
      (b = 0 → exec (.divu64 a b) s = .next (s.raiseFault .divZero))

/-- R115. -/
def Obligations.Remu64GivesRemainderAndQuotient : Prop :=
  ∀ a b : DWord, decode ⟨0b1001, a, b⟩ = .remu64 a b ∧
    ∀ s : State,
      (b ≠ 0 → exec (.remu64 a b) s = .next (s.complete
        (BitVec.ofNat 64 (a.toNat % b.toNat)) (BitVec.ofNat 64 (a.toNat / b.toNat)))) ∧
      (b = 0 → exec (.remu64 a b) s = .next (s.raiseFault .divZero))

/-- R116, with R105's truncating quotient. -/
def Obligations.Div64GivesTruncatingQuotient : Prop :=
  ∀ a b : DWord, decode ⟨0b1010, a, b⟩ = .div64 a b ∧
    ∀ s : State,
      (b ≠ 0 → exec (.div64 a b) s = .next (s.complete
        (BitVec.ofInt 64 (a.toInt.tdiv b.toInt)) (BitVec.ofInt 64 (a.toInt.tmod b.toInt)))) ∧
      (b = 0 → exec (.div64 a b) s = .next (s.raiseFault .divZero))

/-- R117. -/
def Obligations.Rem64GivesTruncatingRemainder : Prop :=
  ∀ a b : DWord, decode ⟨0b1011, a, b⟩ = .rem64 a b ∧
    ∀ s : State,
      (b ≠ 0 → exec (.rem64 a b) s = .next (s.complete
        (BitVec.ofInt 64 (a.toInt.tmod b.toInt)) (BitVec.ofInt 64 (a.toInt.tdiv b.toInt)))) ∧
      (b = 0 → exec (.rem64 a b) s = .next (s.raiseFault .divZero))

/-- R64: the results of the 32-bit operations are zero-extended, the signed ones too. -/
def Obligations.WordResultsAreZeroExtended : Prop :=
  ∀ (a b : DWord) (i : Instr),
    i ∈ [.mul32 a b, .divu32 a b, .remu32 a b, .div32 a b, .rem32 a b] →
    ∀ s t : State, exec i s = .next t → t.valid = true →
      ∃ r r2 : Word, t.res = .value (r.setWidth 64) ∧ t.res2 = .value (r2.setWidth 64)

/-- R66, R106: from one state and with the same draws, a quotient form and its remainder form give one pair, in opposite
places, or fault alike. Where the pair is drawn (R108), that the two forms draw alike is the model's index of the draws, by
edge and member (notes/assumptions/10.md), and no law between two requests. The other operations leave RES2 zero. -/
def Obligations.ModeBitSwapsThePair : Prop :=
  ∀ (a b : DWord) (s : State),
    (∀ i j : Instr,
      (i, j) ∈ [(.divu32 a b, .remu32 a b), (.div32 a b, .rem32 a b), (.divu64 a b, .remu64 a b), (.div64 a b, .rem64 a b)] →
      (∃ q r : DWord, exec i s = .next (s.complete q r) ∧ exec j s = .next (s.complete r q)) ∨
      (exec i s = .next (s.raiseFault .divZero) ∧ exec j s = .next (s.raiseFault .divZero))) ∧
    ∀ i : Instr, i ∈ [.mul32 a b, .mulwu a b, .mul64 a b, .sll64 a b, .srl64 a b, .sra64 a b] →
      ∃ r : DWord, exec i s = .next (s.complete r 0)

/-- R102, R103: the restoring datapath at both widths gives the quotient and the remainder of R101. -/
def Obligations.RestoringDivisionIsUnsignedDivision : Prop :=
  (∀ n d : Word, d ≠ 0 →
    restoringDivide .w32 (n.setWidth 64) (d.setWidth 64) =
      ((BitVec.ofNat 32 (n.toNat / d.toNat)).setWidth 64, (BitVec.ofNat 32 (n.toNat % d.toNat)).setWidth 64)) ∧
  ∀ n d : DWord, d ≠ 0 →
    restoringDivide .w64 n d = (BitVec.ofNat 64 (n.toNat / d.toNat), BitVec.ofNat 64 (n.toNat % d.toNat))

/-- R102, R103, R180: with `m` alignment steps, at most 31 or 63, the divider of a request in flight holds what the restoring
datapath ends with from edge `2 + m + (m + 1)` on, the accept being the first, until the request ends. That is the edge before
the last of R180's count, which is the latency in the reference form. The phases are the model's (notes/assumptions/13.md),
and so is the form of the latency (notes/assumptions/5.md). -/
def Obligations.DividerIsReadyForItsLastEdge : Prop :=
  ∀ s : State, s.st = .idle → s.input.inValid = true →
    let r := s.input.request
    let w := Request.divWidth r
    let num := if r.isSigned && r.a.getLsbD w.top then w.negate (w.trunc r.a) else w.trunc r.a
    let den := if r.isSigned && r.b.getLsbD w.top then w.negate (w.trunc r.b) else w.trunc r.b
    let m := alignSteps w num den
    r.family = .divide32 ∨ r.family = .divide64 → w.trunc r.b ≠ 0 →
      m ≤ w.top ∧
      (s.params.divLatency = .reference → 2 + m + (m + 1) ≤ maxLatency s.params r →
        requestLatency s.params r s.edge = 2 + m + (m + 1)) ∧
      ∀ k, 2 + m + (m + 1) ≤ k → k ≤ requestLatency s.params r s.edge → (∀ p ∈ s.pins.take k, p.rst = false) →
        ∃ t, runEdges k s = .next t ∧ t.st = .busy ∧ t.latched = r ∧
          t.hidden.div.phase = .place ∧ (t.hidden.div.q, t.hidden.div.n) = restoringDivide w num den

/-! ### Shift family -/

/-- R131, with R135's clause. -/
def Obligations.Sll64ShiftsLeft : Prop :=
  ∀ a b : DWord, decode ⟨0b1100, a, b⟩ = .sll64 a b ∧
    ∀ (s : State) (k : Nat), k = (b.extractLsb' 0 32).toNat →
      (k < 64 → exec (.sll64 a b) s = .next (s.complete (a <<< k) 0)) ∧
      (64 ≤ k → ∃ v : DWord, exec (.sll64 a b) s = .next (s.complete v 0))

/-- R132, with R135's clause. -/
def Obligations.Srl64ShiftsRight : Prop :=
  ∀ a b : DWord, decode ⟨0b1101, a, b⟩ = .srl64 a b ∧
    ∀ (s : State) (k : Nat), k = (b.extractLsb' 0 32).toNat →
      (k < 64 → exec (.srl64 a b) s = .next (s.complete (a >>> k) 0)) ∧
      (64 ≤ k → ∃ v : DWord, exec (.srl64 a b) s = .next (s.complete v 0))

/-- R133, with R135's clause. -/
def Obligations.Sra64ShiftsArithmetically : Prop :=
  ∀ a b : DWord, decode ⟨0b1110, a, b⟩ = .sra64 a b ∧
    ∀ (s : State) (k : Nat), k = (b.extractLsb' 0 32).toNat →
      (k < 64 → exec (.sra64 a b) s = .next (s.complete (a.sshiftRight k) 0)) ∧
      (64 ≤ k → ∃ v : DWord, exec (.sra64 a b) s = .next (s.complete v 0))

/-- R134: the half-word datapath gives the three shifts, at the counts 0 and 32 too. -/
def Obligations.HalfWordShifterConforms : Prop :=
  ∀ (a : DWord) (k : Nat), k < 64 →
    halfWordShift .left a k = a <<< k ∧ halfWordShift .right a k = a >>> k ∧ halfWordShift .arith a k = a.sshiftRight k

/-- R136. The count is `k` itself in `b`. The law of SRA64 is stated for `k < 63`: at 63 the divisor `2^63` is a negative
number for DIV64, and the law fails for `-2^63`. -/
def Obligations.ShiftLaws : Prop :=
  ∀ (a : DWord) (k : Nat) (s : State), k < 64 →
    (∀ i ∈ [Instr.sll64 a 0, .srl64 a 0, .sra64 a 0], exec i s = .next (s.complete a 0)) ∧
    exec (.sll64 a (.ofNat 64 k)) s = exec (.mul64 a (.ofNat 64 (2 ^ k))) s ∧
    (∃ v r : DWord, exec (.srl64 a (.ofNat 64 k)) s = .next (s.complete v 0) ∧
      exec (.divu64 a (.ofNat 64 (2 ^ k))) s = .next (s.complete v r)) ∧
    (k < 63 → 0 ≤ a.toInt ∨ a.toInt % 2 ^ k = 0 →
      ∃ v r : DWord, exec (.sra64 a (.ofNat 64 k)) s = .next (s.complete v 0) ∧
        exec (.div64 a (.ofNat 64 (2 ^ k))) s = .next (s.complete v r)) ∧
    (1 ≤ k → ∃ v u : DWord, exec (.sll64 a (.ofNat 64 k)) s = .next (s.complete v 0) ∧
      exec (.srl64 v (.ofNat 64 k)) s = .next (s.complete u 0) ∧ u.toNat = a.toNat % 2 ^ (64 - k))

/-! ### Faults -/

/-- R65: a reserved request is accepted and then ends in the fault entry with `0b01`; the other 14 values of `op` are not
reserved. -/
def Obligations.ReservedOpsRaiseIllegalOp : Prop :=
  (∀ (a b : DWord) (s : State),
    decode ⟨0b0011, a, b⟩ = .reserved0011 a b ∧ decode ⟨0b1111, a, b⟩ = .reserved1111 a b ∧
    (∀ i ∈ [Instr.reserved0011 a b, .reserved1111 a b], exec i s = .next (s.raiseFault .illegalOp)) ∧
    (s.raiseFault .illegalOp).cause = 0b01 ∧
    (s.raiseFault .illegalOp).res = .unspec ∧ (s.raiseFault .illegalOp).res2 = .unspec) ∧
  (∀ (s : State) (p : Pins) (rest : List Pins), s.pins = p :: rest → p.rst = false → p.inValid = true → s.st = .idle →
    p.op = 0b0011 ∨ p.op = 0b1111 → ∃ t, step s = .next t ∧ t.st = .busy ∧ t.opl = p.op) ∧
  ∀ r : Request, r.op ≠ 0b0011 → r.op ≠ 0b1111 → ∀ a b, decode r ≠ .reserved0011 a b ∧ decode r ≠ .reserved1111 a b

/-- R108, R180: the four 32-bit divides with `b[31:0] = 0`. Under DRAW both results are zero-extended values, of which nothing more is said, and the
latency is within the bound of a 32-bit divide; under FAULT the request raises DIV_ZERO. A bound of 0 counts as 1 by the
model's choice (notes/assumptions/18.md). That the request ends when its latency is over is AcceptedRequestsEndInTime. -/
def Obligations.WordDivideByZeroFollowsThePolicy : Prop :=
  ∀ (a b : DWord) (s : State), b.extractLsb' 0 32 = 0 →
    (∀ i ∈ [Instr.divu32 a b, .remu32 a b, .div32 a b, .rem32 a b], ZeroDenominator32 i s) ∧
    ∀ op ∈ [0b0100#4, 0b0101#4, 0b0110#4, 0b0111#4], s.params.pDiv0_32 = .draw →
      requestLatency s.params ⟨op, a, b⟩ s.edge ≤ max 1 s.params.pLatDiv32Max

/-- R109: the four 64-bit divides with `b = 0` fault, and never complete. The test comes before any iteration: the latency is
that of a fault (R180), which takes exactly its parameter, and at least 1, by the model's choice (notes/assumptions/18.md). -/
def Obligations.DoubleWordDivideByZeroFaults : Prop :=
  ∀ (a : DWord) (s : State),
    (∀ i ∈ [Instr.divu64 a 0, .remu64 a 0, .div64 a 0, .rem64 a 0],
      ∃ t, exec i s = .next t ∧ t.cause = 0b10 ∧ t.flt = true ∧ t.valid = false ∧ t.res = .unspec ∧ t.res2 = .unspec) ∧
    ∀ op ∈ [0b1000#4, 0b1001#4, 0b1010#4, 0b1011#4],
      requestLatency s.params ⟨op, a, 0⟩ s.edge = max 1 s.params.pLatFault

/-- R150: the codes, and exactly which requests raise them; `faultCause` is the table's middle column. A reset and an accept
leave `0b00`. -/
def Obligations.CausesAreRaisedExactlyByTheTable : Prop :=
  Fault.illegalOp.code = 0b01 ∧ Fault.divZero.code = 0b10 ∧
  (∀ (i : Instr) (s : State),
    match faultCause s.params i with
    | some c => exec i s = .next (s.raiseFault c) ∧ (s.raiseFault c).cause = c.code
    | none   => ∃ r r2 : DWord, exec i s = .next (s.complete r r2)) ∧
  ∀ s t : State, step s = .next t → s.input.rst = true ∨ (s.st = .idle ∧ t.st = .busy) → t.cause = 0b00

/-- R152: what an edge that ends a request in a fault writes, and that it writes nothing else; the pulse lasts one cycle. The
form of the record's entry (notes/assumptions/12.md) and that the datapath registers stay at that edge
(notes/assumptions/13.md) are the model's. -/
def Obligations.FaultEntryWritesItsRegistersOnly : Prop :=
  ∀ (i : Instr) (s t : State), exec i s = .next t → t.flt = true →
    (∃ c : Fault, t.cause = c.code ∧ t.faults = s.faults ++ [⟨s.accepts, c⟩]) ∧
    t.valid = false ∧ t.st = .idle ∧ t.res = .unspec ∧ t.res2 = .unspec ∧
    t.opl = s.opl ∧ t.al = s.al ∧ t.bl = s.bl ∧ t.accepts = s.accepts ∧ t.params = s.params ∧
    t.pins = s.pins.tail ∧ t.edge = s.edge + 1 ∧ t.hidden.div = s.hidden.div ∧ t.hidden.mul = s.hidden.mul ∧
    ∀ u, step t = .next u → u.flt = false ∧ u.valid = false

/-- R27: what an edge that ends a request normally writes, and that it writes nothing else (the frame of every instruction
that completes; CORE has no memory). That the datapath registers stay at that edge is the model's (notes/assumptions/13.md). -/
def Obligations.CompletionWritesItsRegistersOnly : Prop :=
  ∀ (i : Instr) (s t : State), exec i s = .next t → t.valid = true →
    (∃ r r2 : DWord, t.res = .value r ∧ t.res2 = .value r2) ∧
    t.flt = false ∧ t.st = .idle ∧ t.cause = s.cause ∧ t.faults = s.faults ∧
    t.opl = s.opl ∧ t.al = s.al ∧ t.bl = s.bl ∧ t.accepts = s.accepts ∧ t.params = s.params ∧
    t.pins = s.pins.tail ∧ t.edge = s.edge + 1 ∧ t.hidden.div = s.hidden.div ∧ t.hidden.mul = s.hidden.mul

/-- R153: the record keeps every entry, over any number of edges, resets among them, and each `fault` pulse adds one. -/
def Obligations.FaultRecordIsNeverCleared : Prop :=
  (∀ (k : Nat) (s t : State), runEdges k s = .next t → s.faults <+: t.faults) ∧
  ∀ s t : State, step s = .next t →
    (t.flt = true ∧ ∃ c : Fault, t.cause = c.code ∧ t.faults = s.faults ++ [⟨s.accepts, c⟩]) ∨
    (t.flt = false ∧ t.faults = s.faults)

/-! ### Handshake and reset -/

/-- R34: the reset values, with every choice of parameters, and that nothing reads the latches or the hidden state before
the next accept: with other values in them an idle edge does the same and keeps them, and an accept or a reset edge gives the
very same state. -/
def Obligations.ResetValues : Prop :=
  (∀ (s : State) (p : Params), s = .resetWith p →
    s.st = .idle ∧ s.res = .value 0 ∧ s.res2 = .value 0 ∧ s.cause = 0b00 ∧ s.valid = false ∧ s.flt = false) ∧
  (∀ s : State, s.input.rst = true → ∃ t, step s = .next t ∧
    t.st = .idle ∧ t.res = .value 0 ∧ t.res2 = .value 0 ∧ t.cause = 0b00 ∧ t.valid = false ∧ t.flt = false) ∧
  ∀ (s t : State) (r : Request) (h : Hidden), s.st = .idle → step s = .next t →
    step (withLatches s r h) = .next t ∨
      (s.input.rst = false ∧ t.st = .idle ∧ step (withLatches s r h) = .next (withLatches t r h))

/-- R171: at an edge with `rst = 1` nothing is accepted, nothing ends and nothing pulses, whatever else is due. -/
def Obligations.ResetDominates : Prop :=
  ∀ s : State, s.input.rst = true → s.inReady = false ∧
    ∃ t, step s = .next t ∧ t.st = .idle ∧ t.valid = false ∧ t.flt = false ∧ t.cause = 0b00 ∧
      t.res = .value 0 ∧ t.res2 = .value 0 ∧ t.accepts = s.accepts ∧ t.faults = s.faults ∧ t.params = s.params

/-- R172: after reset, the first edge with an offer accepts it, after any number of edges without one: from the state of reset,
and from any state whatever whose next edge has `rst = 1`. -/
def Obligations.FirstOfferAfterResetIsAccepted : Prop :=
  ∀ (quiet : List Pins) (offer : Pins) (rest : List Pins),
    (∀ q ∈ quiet, q.rst = false ∧ q.inValid = false) → offer.rst = false → offer.inValid = true →
    (∀ p : Params, ∃ t, runEdges (quiet.length + 1) { State.resetWith p with pins := quiet ++ offer :: rest } = .next t ∧
      t.st = .busy ∧ t.latched = offer.request ∧ t.accepts = 1) ∧
    ∀ (s : State) (r : Pins), r.rst = true → s.pins = r :: (quiet ++ offer :: rest) →
      ∃ t, runEdges (quiet.length + 2) s = .next t ∧
        t.st = .busy ∧ t.latched = offer.request ∧ t.accepts = s.accepts + 1

/-- R26: the accept, and that a busy CORE accepts nothing. -/
def Obligations.AcceptLatchesTheRequest : Prop :=
  (∀ s : State, s.input.rst = false → s.st = .idle → s.input.inValid = true →
    ∃ t, step s = .next t ∧ t.opl = s.input.op ∧ t.al = s.input.a ∧ t.bl = s.input.b ∧ t.st = .busy ∧
      t.valid = false ∧ t.flt = false ∧ t.cause = 0b00 ∧ t.res = .unspec ∧ t.res2 = .unspec ∧
      t.faults = s.faults ∧ t.params = s.params ∧ t.pins = s.pins.tail ∧ t.accepts = s.accepts + 1) ∧
  ∀ s t : State, s.input.rst = false → s.st = .busy → step s = .next t →
    t.opl = s.opl ∧ t.al = s.al ∧ t.bl = s.bl ∧ t.accepts = s.accepts ∧ t.pins = s.pins.tail

/-- R174, R48: a request is taken at exactly the edges where `in_valid` and `in_ready` are 1, one at a time, and it is the
one on the ports. -/
def Obligations.RequestsAreTakenExactlyWhenReady : Prop :=
  ∀ s t : State, step s = .next t →
    (s.input.inValid = true ∧ s.inReady = true → t.accepts = s.accepts + 1 ∧ t.st = .busy ∧ t.latched = s.input.request) ∧
    (¬ (s.input.inValid = true ∧ s.inReady = true) → t.accepts = s.accepts ∧ t.pins = s.pins.tail ∧ (t.st = .busy → s.st = .busy)) ∧
    (s.inReady = true ↔ s.st = .idle ∧ s.input.rst = false)

/-- R27: the edge at which the latency has run out is `exec` of the latched request, at that state, with nothing added. -/
def Obligations.StepRunsTheLatchedRequest : Prop :=
  ∀ (s : State) (i : Instr), s.st = .busy → s.input.rst = false → s.hidden.count ≤ 1 →
    decode s.latched = i → step s = exec i s

/-- The state the host builds to run a table word takes exactly that request's edge next (notes/assumptions/14.md). -/
def Obligations.PlacedWordRunsNext : Prop :=
  ∀ (s : State) (nbits w : Nat) (i : Instr), w < 2 ^ nbits → decodeTableWord nbits w = some i →
    step (s.withFetchWord nbits w) = exec i (s.withFetchWord nbits w)

/-- R37: an idle edge without an offer, and a busy edge before the latency has run out. -/
def Obligations.QuietEdgesClearThePulsesOnly : Prop :=
  ∀ s : State, s.input.rst = false →
    (s.st = .idle ∧ s.input.inValid = false) ∨ (s.st = .busy ∧ 1 < s.hidden.count) →
    ∃ t, step s = .next t ∧ t.valid = false ∧ t.flt = false ∧
      t.st = s.st ∧ t.opl = s.opl ∧ t.al = s.al ∧ t.bl = s.bl ∧ t.res = s.res ∧ t.res2 = s.res2 ∧ t.cause = s.cause ∧
      t.faults = s.faults ∧ t.accepts = s.accepts ∧ t.params = s.params

/-- R25, R27: `out_valid` and `fault` are 1 only in the cycle after an edge that ends a request, and never together. -/
def Obligations.PulsesFollowTheEndOnly : Prop :=
  ∀ s t : State, step s = .next t →
    (t.valid = true ∨ t.flt = true ↔ s.input.rst = false ∧ s.st = .busy ∧ t.st = .idle) ∧
    ¬ (t.valid = true ∧ t.flt = true)

/-- R29: from a completion or a reset to the next accept the results stay; in flight and after a fault they are unspecified
until a completion, and the ports then show draws. -/
def Obligations.ResultsAreHeldUntilTheNextAccept : Prop :=
  ∀ s : State, Inv s →
    (s.st = .idle → s.cause = 0b00 →
      ∃ r r2 : DWord, s.res = .value r ∧ s.res2 = .value r2 ∧ s.resOut = r ∧ s.res2Out = r2 ∧
        ∀ t, step s = .next t → s.input.rst = false → t.st = .idle → t.res = .value r ∧ t.res2 = .value r2) ∧
    (s.st = .busy ∨ s.cause ≠ 0b00 →
      s.resOut = Config.draw 64 .resRead s.edge ∧ s.res2Out = Config.draw 64 .res2Read s.edge ∧
        ∀ t, step s = .next t → s.input.rst = false → t.valid = false → t.res = .unspec ∧ t.res2 = .unspec)

/-- R36: two machines that end one request with the same parameters and draws have one outcome, whatever else they hold; and
while a request is in flight the offer on the ports does not matter. -/
def Obligations.OutcomeDependsOnTheRequestAlone : Prop :=
  (∀ (i : Instr) (s s' : State), s.params = s'.params → s.edge = s'.edge →
    ∃ x : ExecResult, exec i s = .next (s.finish x) ∧ exec i s' = .next (s'.finish x)) ∧
  ∀ (s : State) (p p' : Pins) (rest : List Pins), s.st = .busy → p.rst = p'.rst →
    step { s with pins := p :: rest } = step { s with pins := p' :: rest }

/-- R33: no edge changes the build parameters. -/
def Obligations.ParametersNeverChange : Prop :=
  ∀ (k : Nat) (s t : State), runEdges k s = .next t → t.params = s.params

/-- CORE never stops (93_implementation_defined.md): every edge of every state has a next state, for as long as it runs. -/
def Obligations.EveryEdgeHasANextState : Prop :=
  ∀ (k : Nat) (s : State), ∃ t, runEdges k s = .next t

/-! ### Headline results -/

/-- The invariant holds right after reset, with every choice of parameters. -/
def Obligations.ResetMeetsTheInvariant : Prop := ∀ p : Params, Inv (.resetWith p)

/-- Every edge keeps the invariant, from every state that meets it. -/
def Obligations.EveryEdgeKeepsTheInvariant : Prop :=
  ∀ s t : State, Inv s → step s = .next t → Inv t

/-- R181: a request accepted with `L` edges to go, `1 ≤ L ≤` the maximum of its operation, is busy for `L` edges and ends at the
next one, unless a reset comes before that; it pulses exactly once, at that end. The accept is the first edge. A maximum of 0,
which R180's `L ≥ 1` rules out, counts as 1 by the model's choice (notes/assumptions/18.md). -/
def Obligations.AcceptedRequestsEndInTime : Prop :=
  ∀ s : State, s.st = .idle → s.input.rst = false → s.input.inValid = true →
    ∃ L : Nat, 1 ≤ L ∧ L ≤ maxLatency s.params s.input.request ∧
      (∀ k, 1 ≤ k → k ≤ L → (∀ p ∈ s.pins.take k, p.rst = false) →
        ∃ u, runEdges k s = .next u ∧ u.st = .busy ∧ u.valid = false ∧ u.flt = false) ∧
      ((∀ p ∈ s.pins.take (L + 1), p.rst = false) →
        ∃ t, runEdges (L + 1) s = .next t ∧ Ended t ∧ t.accepts = s.accepts + 1)

/-- R35: every edge of the clocked machine is one event of the transaction-level model, with what it emits. -/
def Obligations.EveryEdgeIsATransactionEvent : Prop :=
  ∀ s : State, ∃ t, step s = .next t ∧ s.abstract.apply s.params s.event = some (t.abstract, t.emitted)

/-- R30, R80: the datapath registers and the multiplier's structure never reach anything else: two machines that differ in
them only still differ in them only after any edge. R30 and R80 let them show through latency; that not even the edge at which
a request ends depends on them is the model's latency counter (notes/assumptions/13.md). -/
def Obligations.DatapathRegistersNeverShow : Prop :=
  ∀ (s t : State) (d : DivRegs) (m : MulRegs) (impl : MulImpl), step s = .next t →
    ∃ d' m', step (withDatapath s d m impl) = .next (withDatapath t d' m' impl)
end

