-- ==== Sys2Proof/Laws/State.lean ====
section
/-!
SUPPORT. What each edge of Machine/Ops.lean writes, field by field.
-/

namespace Sys2Proof.Machine

/-! ### clock -/

@[simp] theorem State.clock_st (s : State) : s.clock.st = s.st := rfl
@[simp] theorem State.clock_opl (s : State) : s.clock.opl = s.opl := rfl
@[simp] theorem State.clock_al (s : State) : s.clock.al = s.al := rfl
@[simp] theorem State.clock_bl (s : State) : s.clock.bl = s.bl := rfl
@[simp] theorem State.clock_res (s : State) : s.clock.res = s.res := rfl
@[simp] theorem State.clock_res2 (s : State) : s.clock.res2 = s.res2 := rfl
@[simp] theorem State.clock_cause (s : State) : s.clock.cause = s.cause := rfl
@[simp] theorem State.clock_valid (s : State) : s.clock.valid = s.valid := rfl
@[simp] theorem State.clock_flt (s : State) : s.clock.flt = s.flt := rfl
@[simp] theorem State.clock_hidden (s : State) : s.clock.hidden = s.hidden := rfl
@[simp] theorem State.clock_pins (s : State) : s.clock.pins = s.pins.tail := rfl
@[simp] theorem State.clock_faults (s : State) : s.clock.faults = s.faults := rfl
@[simp] theorem State.clock_accepts (s : State) : s.clock.accepts = s.accepts := rfl
@[simp] theorem State.clock_edge (s : State) : s.clock.edge = s.edge + 1 := rfl
@[simp] theorem State.clock_params (s : State) : s.clock.params = s.params := rfl

/-! ### complete -/

@[simp] theorem State.complete_st (s : State) (r r2 : DWord) : (s.complete r r2).st = .idle := rfl
@[simp] theorem State.complete_opl (s : State) (r r2 : DWord) : (s.complete r r2).opl = s.opl := rfl
@[simp] theorem State.complete_al (s : State) (r r2 : DWord) : (s.complete r r2).al = s.al := rfl
@[simp] theorem State.complete_bl (s : State) (r r2 : DWord) : (s.complete r r2).bl = s.bl := rfl
@[simp] theorem State.complete_res (s : State) (r r2 : DWord) : (s.complete r r2).res = .value r := rfl
@[simp] theorem State.complete_res2 (s : State) (r r2 : DWord) : (s.complete r r2).res2 = .value r2 := rfl
@[simp] theorem State.complete_cause (s : State) (r r2 : DWord) : (s.complete r r2).cause = s.cause := rfl
@[simp] theorem State.complete_valid (s : State) (r r2 : DWord) : (s.complete r r2).valid = true := rfl
@[simp] theorem State.complete_flt (s : State) (r r2 : DWord) : (s.complete r r2).flt = false := rfl
@[simp] theorem State.complete_hidden (s : State) (r r2 : DWord) : (s.complete r r2).hidden = { s.hidden with count := 0 } := rfl
@[simp] theorem State.complete_pins (s : State) (r r2 : DWord) : (s.complete r r2).pins = s.pins.tail := rfl
@[simp] theorem State.complete_faults (s : State) (r r2 : DWord) : (s.complete r r2).faults = s.faults := rfl
@[simp] theorem State.complete_accepts (s : State) (r r2 : DWord) : (s.complete r r2).accepts = s.accepts := rfl
@[simp] theorem State.complete_edge (s : State) (r r2 : DWord) : (s.complete r r2).edge = s.edge + 1 := rfl
@[simp] theorem State.complete_params (s : State) (r r2 : DWord) : (s.complete r r2).params = s.params := rfl

/-! ### raiseFault -/

@[simp] theorem State.raiseFault_st (s : State) (c : Fault) : (s.raiseFault c).st = .idle := rfl
@[simp] theorem State.raiseFault_opl (s : State) (c : Fault) : (s.raiseFault c).opl = s.opl := rfl
@[simp] theorem State.raiseFault_al (s : State) (c : Fault) : (s.raiseFault c).al = s.al := rfl
@[simp] theorem State.raiseFault_bl (s : State) (c : Fault) : (s.raiseFault c).bl = s.bl := rfl
@[simp] theorem State.raiseFault_res (s : State) (c : Fault) : (s.raiseFault c).res = .unspec := rfl
@[simp] theorem State.raiseFault_res2 (s : State) (c : Fault) : (s.raiseFault c).res2 = .unspec := rfl
@[simp] theorem State.raiseFault_cause (s : State) (c : Fault) : (s.raiseFault c).cause = c.code := rfl
@[simp] theorem State.raiseFault_valid (s : State) (c : Fault) : (s.raiseFault c).valid = false := rfl
@[simp] theorem State.raiseFault_flt (s : State) (c : Fault) : (s.raiseFault c).flt = true := rfl
@[simp] theorem State.raiseFault_hidden (s : State) (c : Fault) : (s.raiseFault c).hidden = { s.hidden with count := 0 } := rfl
@[simp] theorem State.raiseFault_pins (s : State) (c : Fault) : (s.raiseFault c).pins = s.pins.tail := rfl
@[simp] theorem State.raiseFault_faults (s : State) (c : Fault) : (s.raiseFault c).faults = s.faults ++ [⟨s.accepts, c⟩] := rfl
@[simp] theorem State.raiseFault_accepts (s : State) (c : Fault) : (s.raiseFault c).accepts = s.accepts := rfl
@[simp] theorem State.raiseFault_edge (s : State) (c : Fault) : (s.raiseFault c).edge = s.edge + 1 := rfl
@[simp] theorem State.raiseFault_params (s : State) (c : Fault) : (s.raiseFault c).params = s.params := rfl

/-! ### idleEdge -/

@[simp] theorem State.idleEdge_st (s : State) : s.idleEdge.st = s.st := rfl
@[simp] theorem State.idleEdge_opl (s : State) : s.idleEdge.opl = s.opl := rfl
@[simp] theorem State.idleEdge_al (s : State) : s.idleEdge.al = s.al := rfl
@[simp] theorem State.idleEdge_bl (s : State) : s.idleEdge.bl = s.bl := rfl
@[simp] theorem State.idleEdge_res (s : State) : s.idleEdge.res = s.res := rfl
@[simp] theorem State.idleEdge_res2 (s : State) : s.idleEdge.res2 = s.res2 := rfl
@[simp] theorem State.idleEdge_cause (s : State) : s.idleEdge.cause = s.cause := rfl
@[simp] theorem State.idleEdge_valid (s : State) : s.idleEdge.valid = false := rfl
@[simp] theorem State.idleEdge_flt (s : State) : s.idleEdge.flt = false := rfl
@[simp] theorem State.idleEdge_hidden (s : State) : s.idleEdge.hidden = s.hidden := rfl
@[simp] theorem State.idleEdge_pins (s : State) : s.idleEdge.pins = s.pins.tail := rfl
@[simp] theorem State.idleEdge_faults (s : State) : s.idleEdge.faults = s.faults := rfl
@[simp] theorem State.idleEdge_accepts (s : State) : s.idleEdge.accepts = s.accepts := rfl
@[simp] theorem State.idleEdge_edge (s : State) : s.idleEdge.edge = s.edge + 1 := rfl
@[simp] theorem State.idleEdge_params (s : State) : s.idleEdge.params = s.params := rfl

/-! ### busyEdge -/

@[simp] theorem State.busyEdge_st (s : State) : s.busyEdge.st = s.st := rfl
@[simp] theorem State.busyEdge_opl (s : State) : s.busyEdge.opl = s.opl := rfl
@[simp] theorem State.busyEdge_al (s : State) : s.busyEdge.al = s.al := rfl
@[simp] theorem State.busyEdge_bl (s : State) : s.busyEdge.bl = s.bl := rfl
@[simp] theorem State.busyEdge_res (s : State) : s.busyEdge.res = s.res := rfl
@[simp] theorem State.busyEdge_res2 (s : State) : s.busyEdge.res2 = s.res2 := rfl
@[simp] theorem State.busyEdge_cause (s : State) : s.busyEdge.cause = s.cause := rfl
@[simp] theorem State.busyEdge_valid (s : State) : s.busyEdge.valid = false := rfl
@[simp] theorem State.busyEdge_flt (s : State) : s.busyEdge.flt = false := rfl
@[simp] theorem State.busyEdge_hidden (s : State) : s.busyEdge.hidden = s.hidden.tick s.params.pMulImpl s.latched := rfl
@[simp] theorem State.busyEdge_pins (s : State) : s.busyEdge.pins = s.pins.tail := rfl
@[simp] theorem State.busyEdge_faults (s : State) : s.busyEdge.faults = s.faults := rfl
@[simp] theorem State.busyEdge_accepts (s : State) : s.busyEdge.accepts = s.accepts := rfl
@[simp] theorem State.busyEdge_edge (s : State) : s.busyEdge.edge = s.edge + 1 := rfl
@[simp] theorem State.busyEdge_params (s : State) : s.busyEdge.params = s.params := rfl

/-! ### accept -/

@[simp] theorem State.accept_st (s : State) (r : Request) (k : Nat) : (s.accept r k).st = .busy := rfl
@[simp] theorem State.accept_opl (s : State) (r : Request) (k : Nat) : (s.accept r k).opl = r.op := rfl
@[simp] theorem State.accept_al (s : State) (r : Request) (k : Nat) : (s.accept r k).al = r.a := rfl
@[simp] theorem State.accept_bl (s : State) (r : Request) (k : Nat) : (s.accept r k).bl = r.b := rfl
@[simp] theorem State.accept_res (s : State) (r : Request) (k : Nat) : (s.accept r k).res = .unspec := rfl
@[simp] theorem State.accept_res2 (s : State) (r : Request) (k : Nat) : (s.accept r k).res2 = .unspec := rfl
@[simp] theorem State.accept_cause (s : State) (r : Request) (k : Nat) : (s.accept r k).cause = 0b00 := rfl
@[simp] theorem State.accept_valid (s : State) (r : Request) (k : Nat) : (s.accept r k).valid = false := rfl
@[simp] theorem State.accept_flt (s : State) (r : Request) (k : Nat) : (s.accept r k).flt = false := rfl
@[simp] theorem State.accept_hidden (s : State) (r : Request) (k : Nat) : (s.accept r k).hidden = .load r k := rfl
@[simp] theorem State.accept_pins (s : State) (r : Request) (k : Nat) : (s.accept r k).pins = s.pins.tail := rfl
@[simp] theorem State.accept_faults (s : State) (r : Request) (k : Nat) : (s.accept r k).faults = s.faults := rfl
@[simp] theorem State.accept_accepts (s : State) (r : Request) (k : Nat) : (s.accept r k).accepts = s.accepts + 1 := rfl
@[simp] theorem State.accept_edge (s : State) (r : Request) (k : Nat) : (s.accept r k).edge = s.edge + 1 := rfl
@[simp] theorem State.accept_params (s : State) (r : Request) (k : Nat) : (s.accept r k).params = s.params := rfl

/-! ### resetEdge -/

@[simp] theorem State.resetEdge_st (s : State) : s.resetEdge.st = .idle := rfl
@[simp] theorem State.resetEdge_opl (s : State) : s.resetEdge.opl = Config.draw 4 .latchOp s.edge := rfl
@[simp] theorem State.resetEdge_al (s : State) : s.resetEdge.al = Config.draw 64 .latchA s.edge := rfl
@[simp] theorem State.resetEdge_bl (s : State) : s.resetEdge.bl = Config.draw 64 .latchB s.edge := rfl
@[simp] theorem State.resetEdge_res (s : State) : s.resetEdge.res = .value 0 := rfl
@[simp] theorem State.resetEdge_res2 (s : State) : s.resetEdge.res2 = .value 0 := rfl
@[simp] theorem State.resetEdge_cause (s : State) : s.resetEdge.cause = 0b00 := rfl
@[simp] theorem State.resetEdge_valid (s : State) : s.resetEdge.valid = false := rfl
@[simp] theorem State.resetEdge_flt (s : State) : s.resetEdge.flt = false := rfl
@[simp] theorem State.resetEdge_hidden (s : State) : s.resetEdge.hidden = .drawn s.edge := rfl
@[simp] theorem State.resetEdge_pins (s : State) : s.resetEdge.pins = s.pins.tail := rfl
@[simp] theorem State.resetEdge_faults (s : State) : s.resetEdge.faults = s.faults := rfl
@[simp] theorem State.resetEdge_accepts (s : State) : s.resetEdge.accepts = s.accepts := rfl
@[simp] theorem State.resetEdge_edge (s : State) : s.resetEdge.edge = s.edge + 1 := rfl
@[simp] theorem State.resetEdge_params (s : State) : s.resetEdge.params = s.params := rfl

/-! ### placeRequest -/

@[simp] theorem State.placeRequest_st (s : State) (r : Request) : (s.placeRequest r).st = .busy := rfl
@[simp] theorem State.placeRequest_opl (s : State) (r : Request) : (s.placeRequest r).opl = r.op := rfl
@[simp] theorem State.placeRequest_al (s : State) (r : Request) : (s.placeRequest r).al = r.a := rfl
@[simp] theorem State.placeRequest_bl (s : State) (r : Request) : (s.placeRequest r).bl = r.b := rfl
@[simp] theorem State.placeRequest_res (s : State) (r : Request) : (s.placeRequest r).res = .unspec := rfl
@[simp] theorem State.placeRequest_res2 (s : State) (r : Request) : (s.placeRequest r).res2 = .unspec := rfl
@[simp] theorem State.placeRequest_cause (s : State) (r : Request) : (s.placeRequest r).cause = 0b00 := rfl
@[simp] theorem State.placeRequest_valid (s : State) (r : Request) : (s.placeRequest r).valid = false := rfl
@[simp] theorem State.placeRequest_flt (s : State) (r : Request) : (s.placeRequest r).flt = false := rfl
@[simp] theorem State.placeRequest_hidden (s : State) (r : Request) : (s.placeRequest r).hidden = .load r 1 := rfl
@[simp] theorem State.placeRequest_pins (s : State) (r : Request) : (s.placeRequest r).pins = ⟨false, false, 0, 0, 0⟩ :: s.pins := rfl
@[simp] theorem State.placeRequest_faults (s : State) (r : Request) : (s.placeRequest r).faults = s.faults := rfl
@[simp] theorem State.placeRequest_accepts (s : State) (r : Request) : (s.placeRequest r).accepts = s.accepts + 1 := rfl
@[simp] theorem State.placeRequest_edge (s : State) (r : Request) : (s.placeRequest r).edge = s.edge := rfl
@[simp] theorem State.placeRequest_params (s : State) (r : Request) : (s.placeRequest r).params = s.params := rfl

end Sys2Proof.Machine
end

