-- ==== Sys2Proof/Laws/Ops.lean ====
section
/-!
SUPPORT. One lemma for each shared operation, to be cited where the operation would be unfolded.
-/

namespace Sys2Proof.Machine

@[simp] theorem State.finish_ok (s : State) (r r2 : DWord) : s.finish (.ok r r2) = s.complete r r2 := rfl

@[simp] theorem State.finish_fault (s : State) (c : Fault) : s.finish (.fault c) = s.raiseFault c := rfl

/-- Every meaning is the edge that ends the request, with the outcome that `Exec` gives (R10, R27). -/
theorem exec_eq_finish (i : Instr) (s : State) : exec i s = .next (s.finish (resultOf s.params s.draws i)) := by
  cases i <;> rfl

/-- What the edge that ends a request leaves, whatever its outcome. -/
theorem State.finish_cases (s : State) (x : ExecResult) :
    (∃ r r2, x = .ok r r2 ∧ s.finish x = s.complete r r2) ∨ ∃ c, x = .fault c ∧ s.finish x = s.raiseFault c := by
  cases x with
  | ok r r2 => exact .inl ⟨r, r2, rfl, rfl⟩
  | fault c => exact .inr ⟨c, rfl, rfl⟩

/-- `place32` always completes, with zero-extended members (R106). -/
theorem place32_eq (m : Member) (p : Word × Word) :
    place32 m p = match m with
      | .quotient => .ok (zext64 p.1) (zext64 p.2)
      | .remainder => .ok (zext64 p.2) (zext64 p.1) := by
  cases m <;> rfl

theorem divide32_of_ne (f : Word → Word → Word × Word) (m : Member) (p : Params) (dr : Draws) (a b : DWord)
    (h : lo b ≠ 0) : divide32 f m p dr a b = place32 m (f (lo a) (lo b)) := if_neg h

theorem divide32_of_eq (f : Word → Word → Word × Word) (m : Member) (p : Params) (dr : Draws) (a b : DWord)
    (h : lo b = 0) : divide32 f m p dr a b = div0_32 p.pDiv0_32 dr m := if_pos h

theorem divide64_of_ne (f : DWord → DWord → DWord × DWord) (m : Member) (a b : DWord) (h : b ≠ 0) :
    divide64 f m a b = place64 m (f a b) := if_neg h

theorem divide64_of_eq (f : DWord → DWord → DWord × DWord) (m : Member) (a b : DWord) (h : b = 0) :
    divide64 f m a b = .fault .divZero := if_pos h

theorem shiftBy_in_range (f : DWord → Nat → DWord) (dr : Draws) (a b : DWord) (h : shiftCount b < 64) :
    shiftBy f dr a b = .ok (f a (shiftCount b)) 0 := if_neg (Nat.not_le.mpr h)

theorem shiftBy_out_of_range (f : DWord → Nat → DWord) (dr : Draws) (a b : DWord) (h : 64 ≤ shiftCount b) :
    shiftBy f dr a b = .ok dr.shiftOut 0 := if_pos h

/-- A cause code is 0b01 or 0b10 (R150). -/
theorem Fault.code_cases (c : Fault) : c.code = 0b01 ∨ c.code = 0b10 := by cases c <;> simp [Fault.code]

theorem Fault.code_ne_none (c : Fault) : c.code ≠ 0b00 := by cases c <;> decide

theorem Fault.code_ne_reserved (c : Fault) : c.code ≠ 0b11 := by cases c <;> decide

/-- Two faults with one code are one fault. -/
theorem Fault.code_injective {c c' : Fault} (h : c.code = c'.code) : c = c' := by
  cases c <;> cases c' <;> first | rfl | exact absurd h (by decide)

theorem State.causeName_of_code (s : State) (c : Fault) (h : s.cause = c.code) : s.causeName = .ok (some c) := by
  cases c <;> simp [State.causeName, h, Fault.code]

end Sys2Proof.Machine
end

