-- ==== Sys2Proof/Laws/PerInstr.lean ====
section
/-!
SUPPORT. Statements about every instruction as syntax, one lemma for each constructor.
-/

namespace Sys2Proof.Laws.EncodeFits

/-- The numbers that stand for an instruction's request fit the fields of R60. -/
def Statement (i : Instr) : Prop := (encode i).raw.wellFormed = true

theorem of_request (r : Request) : r.raw.wellFormed = true := by
  simp [RawRequest.wellFormed, Request.raw, r.op.isLt, r.a.isLt, r.b.isLt]

theorem mul32 (a b : DWord) : Statement (.mul32 a b) := of_request _
theorem mulwu (a b : DWord) : Statement (.mulwu a b) := of_request _
theorem mul64 (a b : DWord) : Statement (.mul64 a b) := of_request _
theorem divu32 (a b : DWord) : Statement (.divu32 a b) := of_request _
theorem remu32 (a b : DWord) : Statement (.remu32 a b) := of_request _
theorem div32 (a b : DWord) : Statement (.div32 a b) := of_request _
theorem rem32 (a b : DWord) : Statement (.rem32 a b) := of_request _
theorem divu64 (a b : DWord) : Statement (.divu64 a b) := of_request _
theorem remu64 (a b : DWord) : Statement (.remu64 a b) := of_request _
theorem div64 (a b : DWord) : Statement (.div64 a b) := of_request _
theorem rem64 (a b : DWord) : Statement (.rem64 a b) := of_request _
theorem sll64 (a b : DWord) : Statement (.sll64 a b) := of_request _
theorem srl64 (a b : DWord) : Statement (.srl64 a b) := of_request _
theorem sra64 (a b : DWord) : Statement (.sra64 a b) := of_request _
theorem reserved0011 (a b : DWord) : Statement (.reserved0011 a b) := of_request _
theorem reserved1111 (a b : DWord) : Statement (.reserved1111 a b) := of_request _

end Sys2Proof.Laws.EncodeFits
end

