-- ==== Sys2Proof/Laws/Step.lean ====
section
/-!
SUPPORT. Everything an edge can be, said once.
-/

namespace Sys2Proof.Machine

theorem step_eq_reset {s : State} (h : s.input.rst = true) : step s = .next s.resetEdge := by
  simp [step, clockEdge, h]

theorem step_eq_accept {s : State} (hr : s.input.rst = false) (hs : s.st = .idle) (hv : s.input.inValid = true) :
    step s = .next (s.accept s.input.request (requestLatency s.params s.input.request s.edge)) := by
  simp [step, clockEdge, hr, hs, hv]

theorem step_eq_idleEdge {s : State} (hr : s.input.rst = false) (hs : s.st = .idle) (hv : s.input.inValid = false) :
    step s = .next s.idleEdge := by
  simp [step, clockEdge, hr, hs, hv]

theorem step_eq_busyEdge {s : State} (hr : s.input.rst = false) (hs : s.st = .busy) (hc : 1 < s.hidden.count) :
    step s = .next s.busyEdge := by
  simp [step, clockEdge, hr, hs, Nat.not_le.mpr hc]

theorem step_eq_finish {s : State} (hr : s.input.rst = false) (hs : s.st = .busy) (hc : s.hidden.count ≤ 1) :
    step s = .next (s.finish (resultOf s.params s.draws (decode s.latched))) := by
  simp [step, clockEdge, hr, hs, hc, exec_eq_finish]

/-- An edge is a reset, an accept, an idle edge, a busy edge or the edge that ends the request. -/
theorem step_cases {s t : State} (h : step s = .next t) :
    (s.input.rst = true ∧ t = s.resetEdge) ∨
    (s.input.rst = false ∧ s.st = .idle ∧ s.input.inValid = true ∧
      t = s.accept s.input.request (requestLatency s.params s.input.request s.edge)) ∨
    (s.input.rst = false ∧ s.st = .idle ∧ s.input.inValid = false ∧ t = s.idleEdge) ∨
    (s.input.rst = false ∧ s.st = .busy ∧ 1 < s.hidden.count ∧ t = s.busyEdge) ∨
    (s.input.rst = false ∧ s.st = .busy ∧ s.hidden.count ≤ 1 ∧
      t = s.finish (resultOf s.params s.draws (decode s.latched))) := by
  cases hr : s.input.rst with
  | true => exact .inl ⟨rfl, by simpa [step_eq_reset hr] using h.symm⟩
  | false =>
    cases hs : s.st with
    | idle =>
      cases hv : s.input.inValid with
      | true => exact .inr (.inl ⟨rfl, rfl, rfl, by simpa [step_eq_accept hr hs hv] using h.symm⟩)
      | false => exact .inr (.inr (.inl ⟨rfl, rfl, rfl, by simpa [step_eq_idleEdge hr hs hv] using h.symm⟩))
    | busy =>
      by_cases hc : s.hidden.count ≤ 1
      · exact .inr (.inr (.inr (.inr ⟨rfl, rfl, hc, by simpa [step_eq_finish hr hs hc] using h.symm⟩)))
      · have hc' : 1 < s.hidden.count := Nat.not_le.mp hc
        exact .inr (.inr (.inr (.inl ⟨rfl, rfl, hc', by simpa [step_eq_busyEdge hr hs hc'] using h.symm⟩)))

end Sys2Proof.Machine
end

