-- ==== Sys2Proof/Laws/Run.lean ====
section
/-!
SUPPORT. Runs of several edges: what the coming inputs say of each edge, and a request in flight over any number of edges.
-/

namespace Sys2Proof.Machine

open Sys2Proof.Safety

/-- The coming edge is no reset if the inputs that stand for it are none. -/
theorem State.input_rst_of_take {s : State} {n : Nat} (h : ∀ p ∈ s.pins.take (n + 1), p.rst = false) :
    s.input.rst = false := by
  unfold State.input
  cases hp : s.pins with
  | nil => rfl
  | cons p rest => exact h p (by simp [hp])

/-- After one edge the rest of the inputs are those that follow. -/
theorem rst_of_take_tail {pins : List Pins} {n : Nat} (h : ∀ p ∈ pins.take (n + 1), p.rst = false) :
    ∀ p ∈ pins.tail.take n, p.rst = false := by
  cases pins with
  | nil => simp
  | cons p rest => exact fun q hq => h q (List.mem_cons_of_mem p hq)

theorem runEdges_succ {s t : State} (h : step s = .next t) (n : Nat) : runEdges (n + 1) s = runEdges n t := by
  simp [runEdges, h]

theorem iterate_busyEdge_succ (n : Nat) (s : State) :
    State.busyEdge^[n + 1] s = (State.busyEdge^[n] s).busyEdge := Function.iterate_succ_apply' ..

@[simp] theorem iterate_busyEdge_st (n : Nat) (s : State) : (State.busyEdge^[n] s).st = s.st := by
  induction n with
  | zero => rfl
  | succ n ih => rw [iterate_busyEdge_succ]; exact ih

@[simp] theorem iterate_busyEdge_latched (n : Nat) (s : State) : (State.busyEdge^[n] s).latched = s.latched := by
  induction n with
  | zero => rfl
  | succ n ih => rw [iterate_busyEdge_succ]; exact ih

@[simp] theorem iterate_busyEdge_params (n : Nat) (s : State) : (State.busyEdge^[n] s).params = s.params := by
  induction n with
  | zero => rfl
  | succ n ih => rw [iterate_busyEdge_succ]; exact ih

@[simp] theorem iterate_busyEdge_accepts (n : Nat) (s : State) : (State.busyEdge^[n] s).accepts = s.accepts := by
  induction n with
  | zero => rfl
  | succ n ih => rw [iterate_busyEdge_succ]; exact ih

@[simp] theorem iterate_busyEdge_pins (n : Nat) (s : State) : (State.busyEdge^[n] s).pins = s.pins.drop n := by
  induction n with
  | zero => rfl
  | succ n ih =>
    rw [iterate_busyEdge_succ, ← List.tail_drop, ← ih]
    rfl

/-- The hidden state of a request in flight, edge by edge (R30). -/
@[simp] theorem iterate_busyEdge_hidden (n : Nat) (s : State) :
    (State.busyEdge^[n] s).hidden = (Hidden.tick s.params.pMulImpl s.latched)^[n] s.hidden := by
  induction n with
  | zero => rfl
  | succ n ih =>
    rw [iterate_busyEdge_succ, Function.iterate_succ_apply', ← ih]
    simp only [State.busyEdge, iterate_busyEdge_params, iterate_busyEdge_latched]

/-- The pulses of a request in flight stay 0. -/
theorem iterate_busyEdge_pulses {s : State} (hv : s.valid = false) (hf : s.flt = false) (n : Nat) :
    (State.busyEdge^[n] s).valid = false ∧ (State.busyEdge^[n] s).flt = false := by
  cases n with
  | zero => exact ⟨hv, hf⟩
  | succ n => rw [iterate_busyEdge_succ]; exact ⟨rfl, rfl⟩

@[simp] theorem iterate_tick_count (impl : MulImpl) (r : Request) (n : Nat) (h : Hidden) :
    ((Hidden.tick impl r)^[n] h).count = h.count - n := by
  induction n with
  | zero => rfl
  | succ n ih => rw [Function.iterate_succ_apply', Hidden.tick, ih]; exact (Nat.sub_add_eq ..).symm

/-- The multiplier's registers of a multiply in flight. -/
theorem iterate_tick_mul {impl : MulImpl} {r : Request} (hr : r.family = .multiply) (n : Nat) (h : Hidden) :
    ((Hidden.tick impl r)^[n] h).mul = (MulRegs.tick impl r.a r.b)^[n] h.mul := by
  induction n with
  | zero => rfl
  | succ n ih => simp only [Function.iterate_succ_apply', Hidden.tick, hr, ih]

/-- The divider's registers of a divide in flight. -/
theorem iterate_tick_div {impl : MulImpl} {r : Request} (hr : r.family = .divide32 ∨ r.family = .divide64) (n : Nat)
    (h : Hidden) : ((Hidden.tick impl r)^[n] h).div = (DivRegs.tick (Request.divWidth r))^[n] h.div := by
  induction n with
  | zero => rfl
  | succ n ih => rcases hr with hr | hr <;> simp only [Function.iterate_succ_apply', Hidden.tick, hr, ih]

/-- A request in flight that neither ends nor meets a reset in the next `n` edges. -/
theorem runEdges_busy {n : Nat} {s : State} (hs : s.st = .busy) (hc : n < s.hidden.count)
    (hp : ∀ p ∈ s.pins.take n, p.rst = false) : runEdges n s = .next (State.busyEdge^[n] s) := by
  induction n generalizing s with
  | zero => rfl
  | succ n ih =>
    rw [runEdges_succ (step_eq_busyEdge (State.input_rst_of_take hp) hs (by omega)), Function.iterate_succ_apply]
    exact ih hs (by simp [State.busyEdge, Hidden.tick]; omega) (rst_of_take_tail hp)

/-- An accept and the `n` edges after it, before the request ends. -/
theorem runEdges_accept {n : Nat} {s : State} (hs : s.st = .idle) (hv : s.input.inValid = true)
    (hn : n < requestLatency s.params s.input.request s.edge) (hp : ∀ p ∈ s.pins.take (n + 1), p.rst = false) :
    runEdges (n + 1) s = .next
      (State.busyEdge^[n] (s.accept s.input.request (requestLatency s.params s.input.request s.edge))) := by
  rw [runEdges_succ (step_eq_accept (State.input_rst_of_take hp) hs hv)]
  exact runEdges_busy rfl hn (rst_of_take_tail hp)

end Sys2Proof.Machine
end

