-- ==== Sys2Proof/Tests/Slice0.lean ====
section
/-!
SUPPORT. The model's own tests. Expected values come from 95_test_vectors.md (each test names its vector) or from the
examples in the rules. Then a witness for the hypotheses of each statement of Obligations.lean.
-/

namespace Sys2Proof.Tests

open Sys2Proof.Machine Sys2Proof.Safety

/-! ### Helpers -/

/-- RES and RES2 after the edge that ends `i`, from reset. -/
def results (i : Instr) : Option (ResultReg × ResultReg) :=
  match exec i State.reset with
  | .next t => some (t.res, t.res2)
  | _ => none

/-- VALID, FLT and CAUSE after the edge that ends `i`, with parameters `p`. -/
def status (p : Params) (i : Instr) : Option (Bool × Bool × BitVec 2) :=
  match exec i (State.resetWith p) with
  | .next t => some (t.valid, t.flt, t.cause)
  | _ => none

/-- A completion with these results. -/
def done (r r2 : DWord) : Option (ResultReg × ResultReg) := some (.value r, .value r2)

/-- The parameters with `P_DIV0_32 = FAULT`. -/
def faulting : Params := { Params.reference with pDiv0_32 := .fault }

/-- Input ports that offer a request. -/
def offer (op : OpField) (a b : DWord) : Pins := ⟨false, true, op, a, b⟩

/-- Input ports that offer nothing. -/
def quiet : Pins := ⟨false, false, 0, 0, 0⟩

/-- A busy machine, `k` edges before the end of `divu32 17, 5`. -/
def busyWith (k : Nat) : State := State.reset.accept ⟨0b0100, 17, 5⟩ k

/-! ### Well-formedness: an ill-formed term for each check (R60) -/

theorem test_wellFormed_accepts : (RawRequest.mk 15 (2 ^ 64 - 1) (2 ^ 64 - 1)).wellFormed = true := by decide
theorem test_wellFormed_op : (RawRequest.mk 16 0 0).wellFormed = false := by decide
theorem test_wellFormed_a : (RawRequest.mk 0 (2 ^ 64) 0).wellFormed = false := by decide
theorem test_wellFormed_b : (RawRequest.mk 0 0 (2 ^ 64)).wellFormed = false := by decide
theorem test_toRequest_refuses : (RawRequest.mk 16 0 0).toRequest? = none := by decide

/-! ### Decoding: words written out from R62 and the encodings of 95_test_vectors.md -/

theorem test_decode_mul32 : decodeWord 0x000000000000000200000000FFFFFFFF0 = .instr (.mul32 0xFFFFFFFF 2) := by decide
theorem test_decode_mulwu : decodeWord 0x00000000FFFFFFFF00000000FFFFFFFF1 = .instr (.mulwu 0xFFFFFFFF 0xFFFFFFFF) := by decide
theorem test_decode_mul64 :
    decodeWord 0x000000030000000400000001000000022 = .instr (.mul64 0x100000002 0x300000004) := by decide
theorem test_decode_reserved0011 : decodeWord 0x000000000000000200000000000000013 = .instr (.reserved0011 1 2) := by decide
theorem test_decode_divu32 : decodeWord 0x000000000000000500000000000000114 = .instr (.divu32 17 5) := by decide
theorem test_decode_remu32 : decodeWord 0x000000000000000500000000000000115 = .instr (.remu32 17 5) := by decide
theorem test_decode_div32 : decodeWord 0x000000000000000200000000FFFFFFF96 = .instr (.div32 0xFFFFFFF9 2) := by decide
theorem test_decode_rem32 : decodeWord 0x000000000000000200000000FFFFFFF97 = .instr (.rem32 0xFFFFFFF9 2) := by decide
theorem test_decode_divu64 : decodeWord 0x000000000000000300000001000000008 = .instr (.divu64 0x100000000 3) := by decide
theorem test_decode_remu64 : decodeWord 0x000000000000000300000001000000009 = .instr (.remu64 0x100000000 3) := by decide
theorem test_decode_div64 :
    decodeWord 0x0000000000000002FFFFFFFFFFFFFFF9A = .instr (.div64 0xFFFFFFFFFFFFFFF9 2) := by decide
theorem test_decode_rem64 :
    decodeWord 0xFFFFFFFFFFFFFFFE0000000000000007B = .instr (.rem64 7 0xFFFFFFFFFFFFFFFE) := by decide
theorem test_decode_sll64 : decodeWord 0x00000000000000200000000100000001C = .instr (.sll64 0x100000001 32) := by decide
theorem test_decode_srl64 :
    decodeWord 0x00000000000000018000000000000001D = .instr (.srl64 0x8000000000000001 1) := by decide
theorem test_decode_sra64 :
    decodeWord 0x0000000000000001FFFFFFFFFFFFFFF9E = .instr (.sra64 0xFFFFFFFFFFFFFFF9 1) := by decide
theorem test_decode_reserved1111 : decodeWord 0x00000000000000000000000000000000F = .instr (.reserved1111 0 0) := by decide
theorem test_decode_too_wide : decodeWord (2 ^ 132) = .rejected .notARequest := by decide
theorem test_decodeTableWord : decodeTableWord 8 0x9 = some (.remu64 0 0) := by decide
theorem test_family : (Request.mk 0b0110 0 0).family = .divide32 ∧ (Request.mk 0b1001 0 0).family = .divide64 := by decide

/-- The worked encoding of `div32 -7, 2` (E5). -/
theorem test_assemble_div32 : assemble (.op "div32" (-7) 2) = some ⟨0b0110, 0x00000000FFFFFFF9, 2⟩ := by decide
/-- `sra64 -1, -1` has count `0xFFFFFFFF` (V-FAULT). -/
theorem test_assemble_sra64 :
    assemble (.op "sra64" (-1) (-1)) = some ⟨0b1110, 0xFFFFFFFFFFFFFFFF, 0x00000000FFFFFFFF⟩ := by decide
theorem test_assemble_req : assemble (.req 0b0011 1 2) = some ⟨0b0011, 1, 2⟩ ∧ assemble (.req 0b0000 1 2) = none := by decide

/-! ### Multiply (V-MUL32, V-MULWU, V-MUL64) -/

theorem test_mul32 : results (.mul32 0x12345678 0x9ABCDEF0) = done 0x242D2080 0 := by decide
theorem test_mul32_ignores_high : results (.mul32 0xDEADBEEF00000003 0xCAFEBABE00000005) = done 0xF 0 := by decide
theorem test_mulwu : results (.mulwu 0x12345678 0x9ABCDEF0) = done 0x0B00EA4E242D2080 0 := by decide
theorem test_mulwu_largest : results (.mulwu 0xFFFFFFFF 0xFFFFFFFF) = done 0xFFFFFFFE00000001 0 := by decide
theorem test_mul64 : results (.mul64 0x123456789ABCDEF0 0x0FEDCBA987654321) = done 0x2236D88FE5618CF0 0 := by decide
theorem test_mul64_signed : results (.mul64 0xFFFFFFFFFFFFFFFD 7) = done 0xFFFFFFFFFFFFFFEB 0 := by decide

/-! ### Divide (V-DIV32U, V-DIV32S, V-DIV64U, V-DIV64S, V-FAULT) -/

theorem test_divu32 : results (.divu32 0xFFFFFFFF00000011 0xAAAAAAAA00000005) = done 3 2 := by decide
theorem test_divu32_unsigned : results (.divu32 0x80000000 3) = done 0x2AAAAAAA 2 := by decide
theorem test_remu32 : results (.remu32 17 5) = done 2 3 := by decide
theorem test_remu32_below : results (.remu32 0xFFFFFFFE 0xFFFFFFFF) = done 0xFFFFFFFE 0 := by decide
theorem test_div32 : results (.div32 0xFFFFFFF9 2) = done 0xFFFFFFFD 0xFFFFFFFF := by decide
theorem test_div32_overflow : results (.div32 0x80000000 0xFFFFFFFF) = done 0x80000000 0 := by decide
theorem test_rem32 : results (.rem32 7 0xFFFFFFFE) = done 1 0xFFFFFFFD := by decide
theorem test_rem32_both_negative : results (.rem32 0xFFFFFFF9 0xFFFFFFFE) = done 0xFFFFFFFF 3 := by decide
theorem test_divu64 : results (.divu64 0xFFFFFFFFFFFFFFFF 0x100000000) = done 0xFFFFFFFF 0xFFFFFFFF := by decide
theorem test_divu64_high_denominator : results (.divu64 5 0x100000000) = done 0 5 := by decide
theorem test_remu64 : results (.remu64 0x123456789ABCDEF0 0x12345) = done 0xA497 0x100005B00205 := by decide
theorem test_div64 : results (.div64 0xFFFFFFFF00000000 3) = done 0xFFFFFFFFAAAAAAAB 0xFFFFFFFFFFFFFFFF := by decide
theorem test_div64_overflow :
    results (.div64 0x8000000000000000 0xFFFFFFFFFFFFFFFF) = done 0x8000000000000000 0 := by decide
theorem test_rem64 : results (.rem64 7 0xFFFFFFFFFFFFFFFE) = done 1 0xFFFFFFFFFFFFFFFD := by decide

/-- `divu64 5, 0` and `rem64 0, 0`: DIV_ZERO. -/
theorem test_divu64_by_zero : status .reference (.divu64 5 0) = some (false, true, 0b10) := by decide
theorem test_rem64_by_zero : status .reference (.rem64 0 0) = some (false, true, 0b10) := by decide
/-- `divu32 5, 0` under DRAW completes; `remu32 5, 0` with `b[63:32] = 1` under FAULT does not. -/
theorem test_divu32_by_zero_draw : status .reference (.divu32 5 0) = some (true, false, 0b00) := by decide
theorem test_remu32_by_zero_fault : status faulting (.remu32 5 0x100000000) = some (false, true, 0b10) := by decide

/-! ### Shift (V-SHIFT, V-FAULT) -/

theorem test_sll64 : results (.sll64 0x100000001 0xFFFFFFFF00000020) = done 0x100000000 0 := by decide
theorem test_sll64_31 : results (.sll64 0x123456789ABCDEF0 31) = done 0x4D5E6F7800000000 0 := by decide
theorem test_srl64 : results (.srl64 0x8000000000000001 33) = done 0x40000000 0 := by decide
theorem test_srl64_zero_count : results (.srl64 0x8000000000000000 0x100000000) = done 0x8000000000000000 0 := by decide
theorem test_sra64 : results (.sra64 0xFFFFFFFFFFFFFFF9 1) = done 0xFFFFFFFFFFFFFFFC 0 := by decide
theorem test_sra64_31 : results (.sra64 0x8000000000000001 31) = done 0xFFFFFFFF00000000 0 := by decide
/-- `sll64 1, 64` completes without a fault, with RES2 = 0. -/
theorem test_sll64_out_of_range :
    status .reference (.sll64 1 64) = some (true, false, 0b00) ∧ (results (.sll64 1 64)).map (·.2) = some (.value 0) := by
  decide

/-! ### Reserved (V-FAULT) -/

theorem test_reserved0011 : status .reference (.reserved0011 1 2) = some (false, true, 0b01) := by decide
theorem test_reserved1111 : results (.reserved1111 0 0) = some (.unspec, .unspec) := by decide

/-! ### Handshake (V-HANDSHAKE, P3) -/

/-- Edge 1 of V-HANDSHAKE accepts `divu32 17, 5` with latency 7, and CORE is not ready in the cycle after. -/
theorem test_accept :
    (match step { State.reset with pins := [offer 0b0100 17 5] } with
      | .next t => some (t.latched, t.hidden.count, t.inReady, t.accepts)
      | _ => none) = some (⟨0b0100, 17, 5⟩, 7, false, 1) := by decide
/-- The shift of V-HANDSHAKE has latency 1. -/
theorem test_latency_shift : requestLatency .reference ⟨0b1100, 0x100000001, 32⟩ 0 = 1 := by decide
/-- A busy CORE ignores an offer (edges 2 to 7). -/
theorem test_busy_ignores_offer :
    (match step { busyWith 3 with pins := [offer 0b1100 0x100000001 32] } with
      | .next t => some (t.latched, t.st, t.hidden.count)
      | _ => none) = some (⟨0b0100, 17, 5⟩, .busy, 2) := by decide
/-- Edge 8 ends the divide: ready again, `out_valid` 1, the results on the ports. -/
theorem test_end_of_divide :
    (match step (busyWith 1) with
      | .next t => some (t.inReady, t.outValid, t.faultOut, t.resOut, t.res2Out, t.causeOut)
      | _ => none) = some (true, true, false, 3, 2, 0b00) := by decide
/-- Step 2 of P3 adds its entry to the record. -/
theorem test_fault_record :
    (match step (State.reset.placeRequest ⟨0b1000, 5, 0⟩) with
      | .next t => some (t.faults, t.causeName.toOption)
      | _ => none) = some ([⟨1, .divZero⟩], some (some .divZero)) := by decide
/-- The words of P2's memory in both orders (R41). -/
theorem test_word_order :
    loadDouble .highFirst 0x12345678 0x9ABCDEF0 = 0x123456789ABCDEF0 ∧
    loadDouble .lowFirst 0x12345678 0x9ABCDEF0 = 0x9ABCDEF012345678 ∧
    storeDouble .highFirst 0x2236D88FE5618CF0 = (0x2236D88F, 0xE5618CF0) := by decide

/-! ### Reference datapaths -/

/-- A row of V-DIV64U on which the reading that 90_conflicts.md C6 rejects gives `0x7FFFFFFF`. -/
theorem test_restoring_c6 : restoringDivide .w64 0xFFFFFFFFFFFFFFFF 0x100000000 = (0xFFFFFFFF, 0xFFFFFFFF) := by
  decide +kernel
/-- `divu32 17, 5` takes `s = 2` alignment steps (V-HANDSHAKE). -/
theorem test_align_steps : alignSteps .w32 17 5 = 2 := by decide
theorem test_half_word : halfWordMultiply 0x12345678 0x9ABCDEF0 = 0x0B00EA4E242D2080 := by decide
theorem test_booth : boothMultiply 0x12345678 0x9ABCDEF0 = 0x0B00EA4E242D2080 := by decide
theorem test_wallace : wallaceMultiply 0x12345678 0x9ABCDEF0 = 0x0B00EA4E242D2080 := by decide
theorem test_shift_add : shiftAddMultiply 0x12345678 0x9ABCDEF0 = 0x242D2080 := by decide
theorem test_half_word_shift_32 : halfWordShift .arith 0x8000000000000001 32 = 0xFFFFFFFF80000000 := by decide

/-! ### Witnesses: the hypotheses of each statement hold somewhere -/

/-- AssemblyReducesLiterals. -/
theorem witness_mnemonic : mnemonics.lookup "div32" = some 0b0110 := by decide

/-- EncodeOfDecode: the boundary of both clauses. -/
theorem witness_word_range : 2 ^ 132 - 1 < 2 ^ 132 ∧ 2 ^ 132 ≤ 2 ^ 132 := by decide

/-- UnsignedDivisionIdentity, RestoringDivisionIsUnsignedDivision. -/
theorem witness_denominator : (5 : Word) ≠ 0 ∧ (5 : DWord) ≠ 0 := by decide

/-- MultiplyPipelineHoldsProduct: at its only edge with the reference latency. -/
theorem witness_multiply_in_flight :
    let s := { State.reset with pins := [offer 0b0010 3 7, quiet, quiet] }
    s.st = .idle ∧ s.input.inValid = true ∧ s.input.op ∈ [0b0000#4, 0b0001#4, 0b0010#4] ∧
    3 ≤ 3 ∧ 3 ≤ requestLatency s.params s.input.request s.edge ∧ ∀ p ∈ s.pins.take 3, p.rst = false := by decide

/-- DividerIsReadyForItsLastEdge: the divide of V-HANDSHAKE, with 2 alignment steps and latency 7, in both of its clauses. -/
theorem witness_divide_in_flight :
    let s := { State.reset with pins := [offer 0b0100 17 5, quiet] }
    let r := s.input.request
    s.st = .idle ∧ s.input.inValid = true ∧ r.family = .divide32 ∧ Request.divWidth r = .w32 ∧ r.isSigned = false ∧
    DivWidth.w32.trunc r.b ≠ 0 ∧ alignSteps .w32 (DivWidth.w32.trunc r.a) (DivWidth.w32.trunc r.b) = 2 ∧
    s.params.divLatency = .reference ∧ 2 + 2 + (2 + 1) ≤ maxLatency s.params r ∧
    2 + 2 + (2 + 1) ≤ 7 ∧ 7 ≤ requestLatency s.params r s.edge ∧ ∀ p ∈ s.pins.take 7, p.rst = false := by decide

/-- SignedCornerCases: the last two clauses, with `-1` and `2^31 - 1` as in V-DIV32S. -/
theorem witness_small_numerator :
    (0xFFFFFFFF : Word).toInt.natAbs < (0x7FFFFFFF : Word).toInt.natAbs ∧
    (0xFFFFFFFFFFFFFFFF : DWord).toInt.natAbs < (0x7FFFFFFFFFFFFFFF : DWord).toInt.natAbs := by decide

/-- The eight divide statements: both clauses, the 32-bit ones with a denominator whose high half is not zero. -/
theorem witness_divide_clauses :
    (5 : DWord).extractLsb' 0 32 ≠ 0 ∧ (0x100000000 : DWord).extractLsb' 0 32 = 0 ∧ (0x100000000 : DWord) ≠ 0 := by decide

/-- WordResultsAreZeroExtended, CompletionWritesItsRegistersOnly. -/
theorem witness_completion : ∃ t, exec (.mul32 3 5) State.reset = .next t ∧ t.valid = true := ⟨_, rfl, rfl⟩

/-- FaultEntryWritesItsRegistersOnly, with a next edge. -/
theorem witness_fault : ∃ t u, exec (.divu64 5 0) State.reset = .next t ∧ t.flt = true ∧ step t = .next u :=
  ⟨_, _, rfl, rfl, rfl⟩

/-- ModeBitSwapsThePair: a listed pair, and an operation of the other clause. -/
theorem witness_mode_pair :
    ((.divu32 1 2, .remu32 1 2) : Instr × Instr) ∈
      [(.divu32 1 2, .remu32 1 2), (.div32 1 2, .rem32 1 2), (.divu64 1 2, .remu64 1 2), (.div64 1 2, .rem64 1 2)] ∧
    Instr.sra64 1 2 ∈ [.mul32 1 2, .mulwu 1 2, .mul64 1 2, .sll64 1 2, .srl64 1 2, .sra64 1 2] := by decide

/-- The three shift statements and HalfWordShifterConforms: the last count in range and the first out of range. -/
theorem witness_shift_counts :
    ((63 : DWord).extractLsb' 0 32).toNat < 64 ∧ 64 ≤ ((64 : DWord).extractLsb' 0 32).toNat := by decide

/-- ShiftLaws: the clause of SRA64 at 62, by sign and by exactness, and the other clauses at 63. -/
theorem witness_shift_laws :
    (62 < 64 ∧ 62 < 63 ∧ 0 ≤ (5 : DWord).toInt) ∧ (0xC000000000000000 : DWord).toInt % 2 ^ 62 = 0 ∧
    (1 ≤ 63 ∧ 63 < 64) := by decide

/-- ReservedOpsRaiseIllegalOp: the second clause. -/
theorem witness_reserved_offer :
    let p := offer 0b1111 0 0
    let s := { State.reset with pins := [p] }
    s.pins = p :: [] ∧ p.rst = false ∧ p.inValid = true ∧ s.st = .idle ∧ p.op = 0b1111 := by decide

/-- ReservedOpsRaiseIllegalOp: the last clause. -/
theorem witness_not_reserved : (Request.mk 0b1110 0 0).op ≠ 0b0011 ∧ (Request.mk 0b1110 0 0).op ≠ 0b1111 := by decide

/-- WordDivideByZeroFollowsThePolicy, with both policies. -/
theorem witness_zero_word :
    (0x100000000 : DWord).extractLsb' 0 32 = 0 ∧ State.reset.params.pDiv0_32 = .draw ∧
    (State.resetWith faulting).params.pDiv0_32 = .fault := by decide

/-- DoubleWordDivideByZeroFaults. -/
theorem witness_zero_double : Instr.rem64 0 0 ∈ [.divu64 0 0, .remu64 0 0, .div64 0 0, .rem64 0 0] := by decide

/-- CausesAreRaisedExactlyByTheTable, last clause: a reset edge and an accept. -/
theorem witness_cause_cleared :
    (∃ t, step { State.reset with pins := [⟨true, false, 0, 0, 0⟩] } = .next t) ∧
    ∃ t, step { State.reset with pins := [offer 0b0100 17 5] } = .next t ∧ t.st = .busy := by
  exact ⟨⟨_, rfl⟩, ⟨_, rfl, rfl⟩⟩

/-- ResetValues (second clause), ResetDominates: with a request in flight and another on the ports. -/
theorem witness_reset_edge : ({ busyWith 1 with pins := [⟨true, true, 0, 0, 0⟩] } : State).input.rst = true := by decide

/-- ResetValues (last clause): at an idle edge, and at a reset edge. -/
theorem witness_idle_edge :
    (State.reset.st = .idle ∧ ∃ t, step State.reset = .next t) ∧
    ∃ t, step { State.reset with pins := [⟨true, false, 0, 0, 0⟩] } = .next t :=
  ⟨⟨rfl, _, rfl⟩, _, rfl⟩

/-- FirstOfferAfterResetIsAccepted: the second clause from a busy machine. -/
theorem witness_first_offer :
    let r : Pins := ⟨true, false, 0, 0, 0⟩
    let s := { busyWith 3 with pins := [r, quiet, offer 0b1100 1 1] }
    (∀ q ∈ [quiet], q.rst = false ∧ q.inValid = false) ∧ (offer 0b1100 1 1).rst = false ∧ (offer 0b1100 1 1).inValid = true ∧
    r.rst = true ∧ s.pins = r :: ([quiet] ++ offer 0b1100 1 1 :: []) := by decide

/-- AcceptLatchesTheRequest: both clauses. -/
theorem witness_accept :
    (let s := { State.reset with pins := [offer 0b0100 17 5] }
     s.input.rst = false ∧ s.st = .idle ∧ s.input.inValid = true) ∧
    (busyWith 2).input.rst = false ∧ (busyWith 2).st = .busy ∧ ∃ t, step (busyWith 2) = .next t :=
  ⟨by decide, by decide, by decide, _, rfl⟩

/-- RequestsAreTakenExactlyWhenReady: taken, and offered to a busy CORE. -/
theorem witness_ready :
    (let s := { State.reset with pins := [offer 0b0100 17 5] }
     s.input.inValid = true ∧ s.inReady = true) ∧
    ¬ (({ busyWith 2 with pins := [offer 0b0100 17 5] } : State).inReady = true) := by decide

/-- StepRunsTheLatchedRequest: at the count 1. -/
theorem witness_last_edge :
    (busyWith 1).st = .busy ∧ (busyWith 1).input.rst = false ∧ (busyWith 1).hidden.count ≤ 1 ∧
    decode (busyWith 1).latched = .divu32 17 5 := by decide

/-- PlacedWordRunsNext. -/
theorem witness_table_word : 0xF < 2 ^ 8 ∧ decodeTableWord 8 0xF = some (.reserved1111 0 0) := by decide

/-- QuietEdgesClearThePulsesOnly: both forms, the busy one at the count 2. -/
theorem witness_quiet :
    (State.reset.input.rst = false ∧ State.reset.st = .idle ∧ State.reset.input.inValid = false) ∧
    (busyWith 2).input.rst = false ∧ (busyWith 2).st = .busy ∧ 1 < (busyWith 2).hidden.count := by decide

/-- ResultsAreHeldUntilTheNextAccept (first clause), EveryEdgeKeepsTheInvariant. -/
theorem witness_inv_idle : Inv State.reset ∧ State.reset.st = .idle ∧ State.reset.cause = 0b00 ∧
    ∃ t, step State.reset = .next t ∧ State.reset.input.rst = false ∧ t.st = .idle :=
  ⟨by constructor <;> simp [State.reset, State.resetWith], rfl, rfl, _, rfl, rfl, rfl⟩

/-- ResultsAreHeldUntilTheNextAccept (second clause): a request in flight. -/
theorem witness_inv_busy : Inv (busyWith 2) ∧ (busyWith 2).st = .busy ∧
    ∃ t, step (busyWith 2) = .next t ∧ (busyWith 2).input.rst = false ∧ t.valid = false := by
  refine ⟨?_, rfl, _, rfl, rfl, rfl⟩
  have h : maxLatency Params.reference ⟨4#4, 17#64, 5#64⟩ = 65 := by decide
  constructor <;> simp [busyWith, State.reset, State.resetWith, State.latched, Hidden.load, h]

/-- ResultsAreHeldUntilTheNextAccept (second clause): after a fault. -/
theorem witness_inv_fault :
    let s := (State.reset.accept ⟨0b1000, 5, 0⟩ 1).raiseFault .divZero
    Inv s ∧ s.cause ≠ 0b00 ∧ ∃ t, step s = .next t ∧ s.input.rst = false ∧ t.valid = false := by
  refine ⟨?_, by decide, _, rfl, rfl, rfl⟩
  constructor <;> simp [State.reset, State.resetWith, Fault.code]

/-- OutcomeDependsOnTheRequestAlone: two machines that differ in their results and their record. -/
theorem witness_same_draws :
    let s := { State.reset with res := .value 7, faults := [⟨0, .illegalOp⟩] }
    s ≠ State.reset ∧ s.params = State.reset.params ∧ s.edge = State.reset.edge ∧
    (busyWith 1).st = .busy ∧ (offer 0b0100 17 5).rst = quiet.rst := by decide

/-- FaultRecordIsNeverCleared, ParametersNeverChange, PulsesFollowTheEndOnly, DatapathRegistersNeverShow. -/
theorem witness_edges : ∃ t u, runEdges 2 (busyWith 2) = .next t ∧ step (busyWith 2) = .next u := ⟨_, _, rfl, rfl⟩

/-- AcceptedRequestsEndInTime: both clauses, with the latency 7 of V-HANDSHAKE and a reset on the first edge after the end. -/
theorem witness_offer_without_reset :
    let s := { State.reset with pins := offer 0b0100 17 5 :: (List.replicate 7 quiet ++ [Pins.mk true false 0 0 0]) }
    s.st = .idle ∧ s.input.rst = false ∧ s.input.inValid = true ∧ requestLatency s.params s.input.request s.edge = 7 ∧
    (∀ p ∈ s.pins.take 7, p.rst = false) ∧ ∀ p ∈ s.pins.take (7 + 1), p.rst = false := by decide

end Sys2Proof.Tests
end

section
/-!
PROOFS. The registers of CORE at each edge (10_state.md R26, R29, R34, R36, R37).
-/

namespace Sys2Proof.Machine

open Sys2Proof.Safety

/-! ### What the edge that ends a request leaves unchanged, whatever its outcome (R27, R152) -/

@[simp] theorem State.finish_opl (s : State) (x : ExecResult) : (s.finish x).opl = s.opl := by cases x <;> rfl
@[simp] theorem State.finish_al (s : State) (x : ExecResult) : (s.finish x).al = s.al := by cases x <;> rfl
@[simp] theorem State.finish_bl (s : State) (x : ExecResult) : (s.finish x).bl = s.bl := by cases x <;> rfl
@[simp] theorem State.finish_accepts (s : State) (x : ExecResult) : (s.finish x).accepts = s.accepts := by cases x <;> rfl
@[simp] theorem State.finish_pins (s : State) (x : ExecResult) : (s.finish x).pins = s.pins.tail := by cases x <;> rfl

/-! ### Accept and quiet edges (R26, R37) -/

/-- Settles O44: the accept writes its registers one by one, and a busy CORE that is not reset takes a busy edge or ends
its request, which both keep the latches. -/
theorem acceptLatchesTheRequest : Obligations.AcceptLatchesTheRequest := by
  unfold Obligations.AcceptLatchesTheRequest
  refine ⟨fun s hr hs hv => ⟨_, step_eq_accept hr hs hv, ?_⟩, fun s t hr hs h => ?_⟩
  · simp [Pins.request]
  · by_cases hc : s.hidden.count ≤ 1
    · cases (step_eq_finish hr hs hc).symm.trans h
      simp
    · cases (step_eq_busyEdge hr hs (Nat.not_le.mp hc)).symm.trans h
      simp

/-- Settles O48: the edge is `idleEdge` or `busyEdge`, each of which clears the two pulses only. -/
theorem quietEdgesClearThePulsesOnly : Obligations.QuietEdgesClearThePulsesOnly := by
  unfold Obligations.QuietEdgesClearThePulsesOnly
  rintro s hr (⟨hs, hv⟩ | ⟨hs, hc⟩)
  · exact ⟨_, step_eq_idleEdge hr hs hv, by simp⟩
  · exact ⟨_, step_eq_busyEdge hr hs hc, by simp⟩

/-! ### Other values in the latches and the hidden registers (R34) -/

@[simp] theorem withLatches_st (s : State) (r : Request) (h : Hidden) : (withLatches s r h).st = s.st := rfl
@[simp] theorem withLatches_input (s : State) (r : Request) (h : Hidden) : (withLatches s r h).input = s.input := rfl
@[simp] theorem withLatches_edge (s : State) (r : Request) (h : Hidden) : (withLatches s r h).edge = s.edge := rfl
@[simp] theorem withLatches_params (s : State) (r : Request) (h : Hidden) : (withLatches s r h).params = s.params := rfl

/-- A reset edge writes the latches and the hidden registers, and reads none of them. -/
@[simp] theorem resetEdge_withLatches (s : State) (r : Request) (h : Hidden) :
    (withLatches s r h).resetEdge = s.resetEdge := rfl

/-- An accept writes the latches and the hidden registers, and reads none of them. -/
@[simp] theorem accept_withLatches (s : State) (r r' : Request) (h : Hidden) (k : Nat) :
    (withLatches s r h).accept r' k = s.accept r' k := rfl

@[simp] theorem idleEdge_withLatches (s : State) (r : Request) (h : Hidden) :
    (withLatches s r h).idleEdge = withLatches s.idleEdge r h := rfl

/-- Settles O41: of the three edges that an idle CORE can take, a reset and an accept overwrite the latches and the hidden
registers, and an idle edge carries them along. -/
theorem resetValues : Obligations.ResetValues := by
  unfold Obligations.ResetValues
  refine ⟨?_, fun s hr => ⟨_, step_eq_reset hr, by simp⟩, fun s t r h hs ht => ?_⟩
  · rintro s p rfl
    simp [State.resetWith]
  · cases hr : s.input.rst with
    | true =>
      cases (step_eq_reset hr).symm.trans ht
      exact .inl (by simp [step_eq_reset, hr])
    | false =>
      cases hv : s.input.inValid with
      | true =>
        cases (step_eq_accept hr hs hv).symm.trans ht
        exact .inl (by simp [step_eq_accept, hr, hs, hv])
      | false =>
        cases (step_eq_idleEdge hr hs hv).symm.trans ht
        exact .inr ⟨rfl, hs, by simp [step_eq_idleEdge, hr, hs, hv]⟩

/-! ### Result registers (R29) -/

@[simp] theorem ResultReg.read_value (v : DWord) (site : DrawSite) (edge : Nat) :
    (ResultReg.value v).read site edge = v := rfl
@[simp] theorem ResultReg.read_unspec (site : DrawSite) (edge : Nat) :
    ResultReg.unspec.read site edge = Config.draw 64 site edge := rfl

/-- An idle CORE that is not reset and stays idle had nothing offered to it. -/
theorem eq_idleEdge_of_idle_idle {s t : State} (h : step s = .next t) (hr : s.input.rst = false) (hs : s.st = .idle)
    (ht : t.st = .idle) : t = s.idleEdge := by
  cases hv : s.input.inValid with
  | true =>
    cases (step_eq_accept hr hs hv).symm.trans h
    simp at ht
  | false => simpa [step_eq_idleEdge hr hs hv] using h.symm

/-- Only a reset or a completion makes an unspecified result defined. -/
theorem step_keeps_unspec {s t : State} (h : step s = .next t) (hr : s.input.rst = false) (hv : t.valid = false)
    (h1 : s.res = .unspec) (h2 : s.res2 = .unspec) : t.res = .unspec ∧ t.res2 = .unspec := by
  rcases step_cases h with ⟨hr', -⟩ | ⟨-, -, -, rfl⟩ | ⟨-, -, -, rfl⟩ | ⟨-, -, -, rfl⟩ | ⟨-, -, -, rfl⟩
  · simp [hr] at hr'
  · exact ⟨rfl, rfl⟩
  · exact ⟨h1, h2⟩
  · exact ⟨h1, h2⟩
  · obtain ⟨r, r2, -, hx⟩ | ⟨c, -, hx⟩ := s.finish_cases (resultOf s.params s.draws (decode s.latched))
    · simp [hx] at hv
    · simp [hx]

/-- In flight and after a fault both results are unspecified. -/
theorem results_unspec_of_inv {s : State} (hi : Inv s) (h : s.st = .busy ∨ s.cause ≠ 0b00) :
    s.res = .unspec ∧ s.res2 = .unspec := by
  rcases h with hb | hc
  · obtain ⟨-, -, -, h1, h2⟩ := hi.busy_clean hb
    exact ⟨h1, h2⟩
  · obtain ⟨h1, h2, -⟩ := hi.cause_recorded hc
    exact ⟨h1, h2⟩

/-- Settles O50: the invariant says which results are defined, an edge that stays idle is an idle edge, and no other edge
than a reset or a completion defines a result. -/
theorem resultsAreHeldUntilTheNextAccept : Obligations.ResultsAreHeldUntilTheNextAccept := by
  unfold Obligations.ResultsAreHeldUntilTheNextAccept
  refine fun s hi => ⟨fun hs hc => ?_, fun h => ?_⟩
  · obtain ⟨⟨r, h1⟩, r2, h2⟩ := hi.idle_defined hs hc
    refine ⟨r, r2, h1, h2, by simp [State.resOut, h1], by simp [State.res2Out, h2], fun t ht hr hts => ?_⟩
    rw [eq_idleEdge_of_idle_idle ht hr hs hts]
    exact ⟨h1, h2⟩
  · obtain ⟨h1, h2⟩ := results_unspec_of_inv hi h
    exact ⟨by simp [State.resOut, h1], by simp [State.res2Out, h2],
      fun t ht hr hv => step_keeps_unspec ht hr hv h1 h2⟩

/-! ### What an outcome depends on (R36) -/

/-- The draws are indexed by the edge alone. -/
theorem State.draws_congr {s s' : State} (h : s.edge = s'.edge) : s.draws = s'.draws := by
  simp [State.draws, h]

/-- The edge that ends a request reads none of that edge's inputs. -/
theorem finish_ignores_offer (s : State) (p p' : Pins) (rest : List Pins) (x : ExecResult) :
    State.finish { s with pins := p :: rest } x = State.finish { s with pins := p' :: rest } x := by
  cases x <;> rfl

/-- A busy CORE reads of its inputs `rst` only. -/
theorem step_busy_ignores_offer {s : State} {p p' : Pins} (rest : List Pins) (hs : s.st = .busy) (hp : p.rst = p'.rst) :
    step { s with pins := p :: rest } = step { s with pins := p' :: rest } := by
  cases hr : p.rst with
  | true =>
    exact (step_eq_reset (s := { s with pins := p :: rest }) hr).trans
      (step_eq_reset (s := { s with pins := p' :: rest }) (hp ▸ hr)).symm
  | false =>
    have hr' : p'.rst = false := hp ▸ hr
    by_cases hc : s.hidden.count ≤ 1
    · rw [step_eq_finish (s := { s with pins := p :: rest }) hr hs hc,
        step_eq_finish (s := { s with pins := p' :: rest }) hr' hs hc]
      exact congrArg _ (finish_ignores_offer ..)
    · have hc' : 1 < s.hidden.count := Nat.not_le.mp hc
      exact (step_eq_busyEdge (s := { s with pins := p :: rest }) hr hs hc').trans
        (step_eq_busyEdge (s := { s with pins := p' :: rest }) hr' hs hc').symm

/-- Settles O51: `exec` ends a request with `resultOf` of the parameters, the draws and the request, and a busy CORE reads
no offer. -/
theorem outcomeDependsOnTheRequestAlone : Obligations.OutcomeDependsOnTheRequestAlone := by
  unfold Obligations.OutcomeDependsOnTheRequestAlone
  refine ⟨fun i s s' hp he => ⟨resultOf s.params s.draws i, exec_eq_finish i s, ?_⟩,
    fun s p p' rest hs hp => step_busy_ignores_offer rest hs hp⟩
  rw [hp, State.draws_congr he]
  exact exec_eq_finish i s'

end Sys2Proof.Machine
end

section
/-!
PROOFS. Encoding and what the operands of a request mean (30_encoding.md R62, R64, R65, R67).
-/

namespace Sys2Proof

/-! ### The decoder and the encoder are inverse to each other (R62, R71) -/

theorem decode_encode (i : Instr) : decode (encode i) = i := by
  cases i <;> rfl

theorem encode_decode (r : Request) : encode (decode r) = r := by
  obtain ⟨op, a, b⟩ := r
  unfold decode
  split
  case h_16 =>
    have hop : op = 0b1111#4 := by
      simp only [imp_false] at *
      bv_omega
    exact congrArg (Request.mk · a b) hop.symm
  all_goals next h => exact congrArg (Request.mk · a b) h.symm

end Sys2Proof

namespace Sys2Proof.Machine

open Sys2Proof.Safety

/-- Settles O1: each row of the opcode map is `decode_encode` at one constructor. -/
theorem opcodeMapDecodes : Obligations.OpcodeMapDecodes := by
  unfold Obligations.OpcodeMapDecodes
  intro a b
  exact ⟨decode_encode (.mul32 a b), decode_encode (.mulwu a b), decode_encode (.mul64 a b),
    decode_encode (.reserved0011 a b), decode_encode (.divu32 a b), decode_encode (.remu32 a b),
    decode_encode (.div32 a b), decode_encode (.rem32 a b), decode_encode (.divu64 a b), decode_encode (.remu64 a b),
    decode_encode (.div64 a b), decode_encode (.rem64 a b), decode_encode (.sll64 a b), decode_encode (.srl64 a b),
    decode_encode (.sra64 a b), decode_encode (.reserved1111 a b)⟩

/-! ### Unread bits (R63, R67) -/

@[simp] theorem lo_zext64 (w : Word) : lo (zext64 w) = w := by
  apply BitVec.eq_of_toNat_eq
  simpa [lo, zext64] using w.isLt

/-- A 32-bit divide reads the low words of its operands, in the zero test (R107) and in the division. -/
theorem divide32_reads_lo (f : Word → Word → Word × Word) (m : Member) (p : Params) (dr : Draws) (a b : DWord) :
    divide32 f m p dr (zext64 (lo a)) (zext64 (lo b)) = divide32 f m p dr a b := by
  simp [divide32]

/-- A shift reads the low word of its second operand, as the count. -/
theorem shiftBy_reads_lo (f : DWord → Nat → DWord) (dr : Draws) (a b : DWord) :
    shiftBy f dr a (zext64 (lo b)) = shiftBy f dr a b := by
  simp [shiftBy, shiftCount]

theorem resultMul32_reads_lo (a b : DWord) : resultMul32 (zext64 (lo a)) (zext64 (lo b)) = resultMul32 a b := by
  simp [resultMul32]

theorem resultMulwu_reads_lo (a b : DWord) : resultMulwu (zext64 (lo a)) (zext64 (lo b)) = resultMulwu a b := by
  simp [resultMulwu]

/-- The outcome of a request depends on the bits its operation reads alone. -/
theorem resultOf_readPart (p : Params) (dr : Draws) (i : Instr) : resultOf p dr (readPart i) = resultOf p dr i := by
  cases i with
  | mul32 a b => exact resultMul32_reads_lo a b
  | mulwu a b => exact resultMulwu_reads_lo a b
  | divu32 a b | remu32 a b | div32 a b | rem32 a b => exact divide32_reads_lo ..
  | sll64 a b | srl64 a b | sra64 a b => exact shiftBy_reads_lo ..
  | mul64 | divu64 | remu64 | div64 | rem64 | reserved0011 | reserved1111 => rfl

/-- Settles O6: `exec` ends a request with `resultOf`, which reads no more than `readPart`. -/
theorem unreadBitsNeverMatter : Obligations.UnreadBitsNeverMatter := by
  unfold Obligations.UnreadBitsNeverMatter
  intro i s
  rw [exec_eq_finish, exec_eq_finish, resultOf_readPart]

/-! ### Zero-extended results (R64) -/

/-- Where the outcome is a completion, both results are zero-extended words. -/
inductive ExecResult.ZeroExtended : ExecResult → Prop where
  | ok (w w2 : Word) : ZeroExtended (.ok (zext64 w) (zext64 w2))
  | fault (c : Fault) : ZeroExtended (.fault c)

theorem place32_zeroExtended (m : Member) (p : Word × Word) : (place32 m p).ZeroExtended := by
  cases m with
  | quotient => exact .ok p.1 p.2
  | remainder => exact .ok p.2 p.1

/-- Also where the pair is drawn. -/
theorem div0_32_zeroExtended (policy : Div0Policy) (dr : Draws) (m : Member) : (div0_32 policy dr m).ZeroExtended := by
  cases policy with
  | draw => exact place32_zeroExtended m _
  | fault => exact .fault .divZero

/-- For the signed divides too: the sign is gone once the pair is placed. -/
theorem divide32_zeroExtended (f : Word → Word → Word × Word) (m : Member) (p : Params) (dr : Draws) (a b : DWord) :
    (divide32 f m p dr a b).ZeroExtended := by
  by_cases h : lo b = 0
  · rw [divide32_of_eq f m p dr a b h]
    exact div0_32_zeroExtended ..
  · rw [divide32_of_ne f m p dr a b h]
    exact place32_zeroExtended ..

theorem resultMul32_zeroExtended (a b : DWord) : (resultMul32 a b).ZeroExtended := .ok _ 0

/-- An edge that ends a request with `out_valid` completes it with the outcome of `Exec`. -/
theorem exec_completes_of_valid {i : Instr} {s t : State} (h : exec i s = .next t) (hv : t.valid = true) :
    ∃ r r2, resultOf s.params s.draws i = .ok r r2 ∧ t = s.complete r r2 := by
  cases (exec_eq_finish i s).symm.trans h
  obtain ⟨r, r2, hx, ht⟩ | ⟨c, -, ht⟩ := s.finish_cases (resultOf s.params s.draws i)
  · exact ⟨r, r2, hx, ht⟩
  · simp [ht] at hv

/-- Settles O25: the five operations have zero-extended outcomes, and a completion writes the outcome. -/
theorem wordResultsAreZeroExtended : Obligations.WordResultsAreZeroExtended := by
  unfold Obligations.WordResultsAreZeroExtended
  intro a b i hi s t h hv
  obtain ⟨r, r2, hx, rfl⟩ := exec_completes_of_valid h hv
  have hz : (resultOf s.params s.draws i).ZeroExtended := by
    simp only [List.mem_cons, List.not_mem_nil, or_false] at hi
    obtain rfl | rfl | rfl | rfl | rfl := hi
    · exact resultMul32_zeroExtended a b
    all_goals exact divide32_zeroExtended ..
  rw [hx] at hz
  obtain ⟨w, w2⟩ := hz
  exact ⟨w, w2, rfl, rfl⟩

/-! ### Reserved operations (R65) -/

/-- Only the op of an instruction decodes to it. -/
theorem op_eq_of_decode_eq {r : Request} {i : Instr} (h : decode r = i) : r.op = (encode i).op := by
  rw [← h, encode_decode]

theorem State.input_of_pins {s : State} {p : Pins} {rest : List Pins} (h : s.pins = p :: rest) : s.input = p := by
  simp [State.input, h]

/-- Settles O34: both reserved constructors end in the fault entry, an idle CORE accepts whatever is offered, and an op
that decodes to a reserved constructor is the op that encodes it. -/
theorem reservedOpsRaiseIllegalOp : Obligations.ReservedOpsRaiseIllegalOp := by
  unfold Obligations.ReservedOpsRaiseIllegalOp
  refine ⟨fun a b s => ⟨decode_encode (.reserved0011 a b), decode_encode (.reserved1111 a b), ?_, ?_⟩,
    fun s p rest hp hr hv hs _ => ?_, fun r h3 h15 a b => ⟨fun h => h3 ?_, fun h => h15 ?_⟩⟩
  · simp [exec_eq_finish, resultOf]
  · simp [Fault.code]
  · obtain rfl := State.input_of_pins hp
    exact ⟨_, step_eq_accept hr hs hv, by simp [Pins.request]⟩
  · exact op_eq_of_decode_eq h
  · exact op_eq_of_decode_eq h

end Sys2Proof.Machine
end

section
/-!
PROOFS. The results of the multiply family (40_multiply.md R81, R83, R85).
-/

namespace Sys2Proof.Machine

/-- A request whose outcome is a completion is completed with that outcome (R10, R27). -/
theorem exec_eq_complete {i : Instr} {s : State} {r r2 : DWord} (h : resultOf s.params s.draws i = .ok r r2) :
    exec i s = .next (s.complete r r2) := by
  rw [exec_eq_finish, h, State.finish_ok]

/-- A product of two words fits in a double word, so 64 bits hold it exactly (R83: no overflow is possible). -/
theorem toNat_ofNat_word_product (x y : Word) : (BitVec.ofNat 64 (x.toNat * y.toNat)).toNat = x.toNat * y.toNat := by
  have hlt : x.toNat * y.toNat < 2 ^ 32 * 2 ^ 32 := Nat.mul_lt_mul'' x.isLt y.isLt
  exact (BitVec.toNat_ofNat ..).trans (Nat.mod_eq_of_lt hlt)

/-- Settles O8: the completion holds the product modulo 2^64, and a product of two words is below that. -/
theorem mulwuCompletesWithExactProduct : Obligations.MulwuCompletesWithExactProduct := by
  unfold Obligations.MulwuCompletesWithExactProduct
  exact fun a b => ⟨decode_encode (.mulwu a b),
    fun _ => ⟨_, exec_eq_complete rfl, toNat_ofNat_word_product (lo a) (lo b)⟩⟩

/-- Settles O7: the outcome of MUL32 is the completion of R81, in every state. -/
theorem mul32CompletesWithLowProduct : Obligations.Mul32CompletesWithLowProduct := by
  unfold Obligations.Mul32CompletesWithLowProduct
  exact fun a b => ⟨decode_encode (.mul32 a b), fun _ => exec_eq_complete rfl⟩

/-- Settles O9: the outcome of MUL64 is the completion of R85, in every state. -/
theorem mul64CompletesWithLowProduct : Obligations.Mul64CompletesWithLowProduct := by
  unfold Obligations.Mul64CompletesWithLowProduct
  exact fun a b => ⟨decode_encode (.mul64 a b), fun _ => exec_eq_complete rfl⟩

end Sys2Proof.Machine
end

section
/-!
PROOFS. The results of the divide family (41_divide.md R101, R104, R105, R107 to R117).
-/

namespace Sys2Proof.Machine

open Sys2Proof.Safety

/-! ### The two divisions (R101, R104, R105) -/

/-- The remainder of R101 is `n - d * q`, with nothing lost to the width. -/
theorem udivmod_eq {w : Nat} (n d : BitVec w) : udivmod n d = (n / d, n % d) := by
  have hq : BitVec.ofNat w (n.toNat / d.toNat) = n / d := BitVec.udiv_def.symm
  have hr : BitVec.ofNat w (n.toNat - d.toNat * (n / d).toNat) = n % d := by
    rw [BitVec.toNat_udiv, ← Nat.mod_eq_sub_mul_div, ← BitVec.umod_def]
  simp only [udivmod, hq, hr]

theorem udivmod_eq_ofNat {w : Nat} (n d : BitVec w) :
    udivmod n d = (BitVec.ofNat w (n.toNat / d.toNat), BitVec.ofNat w (n.toNat % d.toNat)) := by
  rw [udivmod_eq, BitVec.udiv_def, BitVec.umod_def]

theorem negate_eq_neg {w : Nat} (v : BitVec w) : negate v = -v := by
  apply BitVec.eq_of_toNat_eq
  rw [negate, BitVec.toNat_ofNat, BitVec.toNat_neg]

/-- The sign wrapper of R104 is the library's signed division: both split on the two signs. -/
theorem sdivmod_eq {w : Nat} (n d : BitVec w) : sdivmod n d = (n.sdiv d, n.srem d) := by
  cases hn : n.msb <;> cases hd : d.msb <;>
    simp [sdivmod, BitVec.sdiv_eq, BitVec.srem_eq, udivmod_eq, negate_eq_neg, hn, hd]

/-- R105: the pair is the truncating one, the overflow of the most negative numerator by -1 included. -/
theorem sdivmod_eq_ofInt {w : Nat} (n d : BitVec w) :
    sdivmod n d = (BitVec.ofInt w (n.toInt.tdiv d.toInt), BitVec.ofInt w (n.toInt.tmod d.toInt)) := by
  have hq : n.sdiv d = BitVec.ofInt w (n.toInt.tdiv d.toInt) :=
    BitVec.eq_of_toInt_eq (by rw [BitVec.toInt_sdiv, BitVec.toInt_ofInt])
  have hr : n.srem d = BitVec.ofInt w (n.toInt.tmod d.toInt) := by
    rw [← BitVec.toInt_srem, BitVec.ofInt_toInt]
  rw [sdivmod_eq, hq, hr]

/-- Settles O15: the pair is quotient and remainder of the numbers, which keep the division identity. -/
theorem unsignedDivisionIdentity : Obligations.UnsignedDivisionIdentity := by
  unfold Obligations.UnsignedDivisionIdentity
  intro w n d hd
  have hpos : 0 < d.toNat := BitVec.toNat_pos_of_ne_zero hd
  rw [udivmod_eq, BitVec.toNat_udiv, BitVec.toNat_umod]
  exact ⟨rfl, (Nat.div_add_mod ..).symm, Nat.mod_lt _ hpos, Nat.div_le_self ..⟩

/-! ### The 32-bit divides (R107, R108, R110 to R113) -/

section Word

variable {i : Instr} {s : State} {f : Word → Word → Word × Word} {m : Member} {a b : DWord}

/-- A 32-bit divide places the pair of its division when `b[31:0]` is not zero. -/
theorem exec_divide32_of_ne {p : Word × Word} (hi : resultOf s.params s.draws i = divide32 f m s.params s.draws a b)
    (hf : f (lo a) (lo b) = p) (hb : lo b ≠ 0) : exec i s = .next (s.finish (place32 m p)) := by
  rw [exec_eq_finish, hi, divide32_of_ne f m _ _ a b hb, hf]

/-- With `b[31:0] = 0` a 32-bit divide follows P_DIV0_32: under DRAW it places the two draws. -/
theorem zeroDenominator32_of_divide32 (hi : resultOf s.params s.draws i = divide32 f m s.params s.draws a b)
    (hb : lo b = 0) : ZeroDenominator32 i s := by
  have hx : exec i s = .next (s.finish (div0_32 s.params.pDiv0_32 s.draws m)) := by
    rw [exec_eq_finish, hi, divide32_of_eq f m _ _ a b hb]
  unfold ZeroDenominator32
  cases hp : s.params.pDiv0_32 with
  | fault => simpa [hp, div0_32] using hx
  | draw =>
    rw [hp] at hx
    cases m with
    | quotient => exact ⟨s.draws.quotient, s.draws.remainder, hx⟩
    | remainder => exact ⟨s.draws.remainder, s.draws.quotient, hx⟩

end Word

/-- Settles O17: `divide32` by the unsigned division, in quotient mode. -/
theorem divu32GivesQuotientAndRemainder : Obligations.Divu32GivesQuotientAndRemainder := by
  unfold Obligations.Divu32GivesQuotientAndRemainder
  refine fun a b => ⟨decode_encode (.divu32 a b), ?_⟩
  rintro s _ _ rfl rfl
  exact ⟨exec_divide32_of_ne (m := .quotient) rfl (udivmod_eq_ofNat ..), zeroDenominator32_of_divide32 rfl⟩

/-- Settles O18: `divide32` by the unsigned division, in remainder mode. -/
theorem remu32GivesRemainderAndQuotient : Obligations.Remu32GivesRemainderAndQuotient := by
  unfold Obligations.Remu32GivesRemainderAndQuotient
  refine fun a b => ⟨decode_encode (.remu32 a b), ?_⟩
  rintro s _ _ rfl rfl
  exact ⟨exec_divide32_of_ne (m := .remainder) rfl (udivmod_eq_ofNat ..), zeroDenominator32_of_divide32 rfl⟩

/-- Settles O19: `divide32` by the signed division, in quotient mode. -/
theorem div32GivesTruncatingQuotient : Obligations.Div32GivesTruncatingQuotient := by
  unfold Obligations.Div32GivesTruncatingQuotient
  refine fun a b => ⟨decode_encode (.div32 a b), ?_⟩
  rintro s _ _ rfl rfl
  exact ⟨exec_divide32_of_ne (m := .quotient) rfl (sdivmod_eq_ofInt ..), zeroDenominator32_of_divide32 rfl⟩

/-- Settles O20: `divide32` by the signed division, in remainder mode. -/
theorem rem32GivesTruncatingRemainder : Obligations.Rem32GivesTruncatingRemainder := by
  unfold Obligations.Rem32GivesTruncatingRemainder
  refine fun a b => ⟨decode_encode (.rem32 a b), ?_⟩
  rintro s _ _ rfl rfl
  exact ⟨exec_divide32_of_ne (m := .remainder) rfl (sdivmod_eq_ofInt ..), zeroDenominator32_of_divide32 rfl⟩

/-! ### The 64-bit divides (R107, R109, R114 to R117) -/

section DoubleWord

variable {i : Instr} {s : State} {f : DWord → DWord → DWord × DWord} {m : Member} {a b : DWord}

/-- A 64-bit divide places the pair of its division when `b` is not zero. -/
theorem exec_divide64_of_ne {p : DWord × DWord} (hi : resultOf s.params s.draws i = divide64 f m a b) (hf : f a b = p)
    (hb : b ≠ 0) : exec i s = .next (s.finish (place64 m p)) := by
  rw [exec_eq_finish, hi, divide64_of_ne f m a b hb, hf]

/-- With `b = 0` a 64-bit divide raises DIV_ZERO. -/
theorem exec_divide64_of_eq (hi : resultOf s.params s.draws i = divide64 f m a b) (hb : b = 0) :
    exec i s = .next (s.raiseFault .divZero) := by
  rw [exec_eq_finish, hi, divide64_of_eq f m a b hb, State.finish_fault]

end DoubleWord

/-- Settles O21: `divide64` by the unsigned division, in quotient mode. -/
theorem divu64GivesQuotientAndRemainder : Obligations.Divu64GivesQuotientAndRemainder := by
  unfold Obligations.Divu64GivesQuotientAndRemainder
  exact fun a b => ⟨decode_encode (.divu64 a b), fun s =>
    ⟨exec_divide64_of_ne (m := .quotient) rfl (udivmod_eq_ofNat a b), exec_divide64_of_eq rfl⟩⟩

/-- Settles O22: `divide64` by the unsigned division, in remainder mode. -/
theorem remu64GivesRemainderAndQuotient : Obligations.Remu64GivesRemainderAndQuotient := by
  unfold Obligations.Remu64GivesRemainderAndQuotient
  exact fun a b => ⟨decode_encode (.remu64 a b), fun s =>
    ⟨exec_divide64_of_ne (m := .remainder) rfl (udivmod_eq_ofNat a b), exec_divide64_of_eq rfl⟩⟩

/-- Settles O23: `divide64` by the signed division, in quotient mode. -/
theorem div64GivesTruncatingQuotient : Obligations.Div64GivesTruncatingQuotient := by
  unfold Obligations.Div64GivesTruncatingQuotient
  exact fun a b => ⟨decode_encode (.div64 a b), fun s =>
    ⟨exec_divide64_of_ne (m := .quotient) rfl (sdivmod_eq_ofInt a b), exec_divide64_of_eq rfl⟩⟩

/-- Settles O24: `divide64` by the signed division, in remainder mode. -/
theorem rem64GivesTruncatingRemainder : Obligations.Rem64GivesTruncatingRemainder := by
  unfold Obligations.Rem64GivesTruncatingRemainder
  exact fun a b => ⟨decode_encode (.rem64 a b), fun s =>
    ⟨exec_divide64_of_ne (m := .remainder) rfl (sdivmod_eq_ofInt a b), exec_divide64_of_eq rfl⟩⟩

end Sys2Proof.Machine
end

section
/-!
PROOFS. The results of the shift family (42_shift.md R131 to R133, R135).
-/

namespace Sys2Proof.Machine

/-! ### The three shifts as numbers and as bits -/

/-- R131: the product by `2^k` modulo `2^64` is the left shift. -/
theorem shiftLeft_eq (a : DWord) (k : Nat) : shiftLeft a k = a <<< k := by
  apply BitVec.eq_of_toNat_eq
  rw [shiftLeft, BitVec.toNat_ofNat, BitVec.toNat_shiftLeft, Nat.shiftLeft_eq]

/-- R132: the floor of the division by `2^k` is the right shift with zeros. -/
theorem shiftRight_eq (a : DWord) (k : Nat) : shiftRight a k = a >>> k := by
  rw [shiftRight, ← Nat.shiftRight_eq_div_pow, ← BitVec.toNat_ushiftRight, BitVec.ofNat_toNat, BitVec.setWidth_eq]

/-- R133: the floor of the signed division by `2^k` is the right shift with copies of the sign. -/
theorem shiftArith_eq (a : DWord) (k : Nat) : shiftArith a k = a.sshiftRight k := by
  rw [shiftArith, bitsOf, BitVec.sshiftRight, Int.shiftRight_eq_div_pow, Int.natCast_pow, Int.cast_ofNat_Int]

/-! ### The shift requests -/

section Shift

variable {i : Instr} {s : State} {f : DWord → Nat → DWord} {a b : DWord}

/-- A shift by a count below 64 completes with the shifted value. -/
theorem exec_shift_in_range {v : DWord} (hi : resultOf s.params s.draws i = shiftBy f s.draws a b)
    (hf : f a (shiftCount b) = v) (hk : shiftCount b < 64) : exec i s = .next (s.complete v 0) :=
  exec_eq_complete (by rw [hi, shiftBy_in_range f _ a b hk, hf])

/-- A shift by 64 or more completes with a draw (R135). -/
theorem exec_shift_out_of_range (hi : resultOf s.params s.draws i = shiftBy f s.draws a b) (hk : 64 ≤ shiftCount b) :
    exec i s = .next (s.complete s.draws.shiftOut 0) :=
  exec_eq_complete (by rw [hi, shiftBy_out_of_range f _ a b hk])

end Shift

/-- Settles O29: `shiftBy` by the left shift; out of range the result is the draw of R135. -/
theorem sll64ShiftsLeft : Obligations.Sll64ShiftsLeft := by
  unfold Obligations.Sll64ShiftsLeft
  refine fun a b => ⟨decode_encode (.sll64 a b), ?_⟩
  rintro s _ rfl
  exact ⟨exec_shift_in_range rfl (shiftLeft_eq ..), fun hk => ⟨_, exec_shift_out_of_range rfl hk⟩⟩

/-- Settles O30: `shiftBy` by the right shift with zeros; out of range the result is the draw of R135. -/
theorem srl64ShiftsRight : Obligations.Srl64ShiftsRight := by
  unfold Obligations.Srl64ShiftsRight
  refine fun a b => ⟨decode_encode (.srl64 a b), ?_⟩
  rintro s _ rfl
  exact ⟨exec_shift_in_range rfl (shiftRight_eq ..), fun hk => ⟨_, exec_shift_out_of_range rfl hk⟩⟩

/-- Settles O31: `shiftBy` by the right shift with sign copies; out of range the result is the draw of R135. -/
theorem sra64ShiftsArithmetically : Obligations.Sra64ShiftsArithmetically := by
  unfold Obligations.Sra64ShiftsArithmetically
  refine fun a b => ⟨decode_encode (.sra64 a b), ?_⟩
  rintro s _ rfl
  exact ⟨exec_shift_in_range rfl (shiftArith_eq ..), fun hk => ⟨_, exec_shift_out_of_range rfl hk⟩⟩

end Sys2Proof.Machine
end

section
/-!
PROOFS. The causes and the requests that raise them (60_exceptions.md R150).
-/

namespace Sys2Proof.Machine

/-! ### The cause of an outcome (R10) -/

/-- The cause that an outcome raises, if it is no completion. -/
def ExecResult.fault? : ExecResult → Option Fault
  | .ok _ _ => none
  | .fault c => some c

theorem ExecResult.fault?_eq_some {x : ExecResult} {c : Fault} : x.fault? = some c ↔ x = .fault c := by
  cases x <;> simp [fault?]

theorem ExecResult.fault?_eq_none {x : ExecResult} : x.fault? = none ↔ ∃ r r2, x = .ok r r2 := by
  cases x <;> simp [fault?]

theorem place64_fault? (m : Member) (p : DWord × DWord) : (place64 m p).fault? = none := by
  cases m <;> rfl

theorem place32_fault? (m : Member) (p : Word × Word) : (place32 m p).fault? = none := place64_fault? m _

theorem div0_32_fault? (policy : Div0Policy) (dr : Draws) (m : Member) :
    (div0_32 policy dr m).fault? = if policy = .fault then some .divZero else none := by
  cases policy with
  | draw => exact place32_fault? m _
  | fault => rfl

/-- A 32-bit divide faults where `b[31:0] = 0` and P_DIV0_32 = FAULT, whichever division it runs. -/
theorem divide32_fault? (f : Word → Word → Word × Word) (m : Member) (p : Params) (dr : Draws) (a b : DWord) :
    (divide32 f m p dr a b).fault? = if lo b = 0 ∧ p.pDiv0_32 = .fault then some .divZero else none := by
  by_cases h : lo b = 0
  · simp [divide32_of_eq f m p dr a b h, div0_32_fault?, h]
  · rw [divide32_of_ne f m p dr a b h, place32_fault?, if_neg (h ·.1)]

/-- A 64-bit divide faults where `b = 0`, whichever division it runs. -/
theorem divide64_fault? (f : DWord → DWord → DWord × DWord) (m : Member) (a b : DWord) :
    (divide64 f m a b).fault? = if b = 0 then some .divZero else none := by
  by_cases h : b = 0
  · rw [divide64_of_eq f m a b h, if_pos h, ExecResult.fault?]
  · rw [divide64_of_ne f m a b h, if_neg h, place64_fault?]

/-- A shift never faults, out of range neither (R135). -/
theorem shiftBy_fault? (f : DWord → Nat → DWord) (dr : Draws) (a b : DWord) : (shiftBy f dr a b).fault? = none := by
  by_cases h : shiftCount b < 64
  · rw [shiftBy_in_range f dr a b h, ExecResult.fault?]
  · rw [shiftBy_out_of_range f dr a b (Nat.not_lt.mp h), ExecResult.fault?]

/-- The table of R150 gives the cause of every request's outcome, whatever the draws. -/
theorem resultOf_fault? (p : Params) (dr : Draws) (i : Instr) : (resultOf p dr i).fault? = faultCause p i := by
  cases i with
  | divu32 a b | remu32 a b | div32 a b | rem32 a b => exact divide32_fault? ..
  | divu64 a b | remu64 a b | div64 a b | rem64 a b => exact divide64_fault? ..
  | sll64 a b | srl64 a b | sra64 a b => exact shiftBy_fault? ..
  | mul32 | mulwu | mul64 | reserved0011 | reserved1111 => rfl

/-! ### The edge that ends a request, by the table (R27, R152) -/

theorem exec_of_faultCause_some {i : Instr} {s : State} {c : Fault} (h : faultCause s.params i = some c) :
    exec i s = .next (s.raiseFault c) := by
  have hx : resultOf s.params s.draws i = .fault c := ExecResult.fault?_eq_some.mp ((resultOf_fault? ..).trans h)
  rw [exec_eq_finish, hx, State.finish_fault]

theorem exec_of_faultCause_none {i : Instr} {s : State} (h : faultCause s.params i = none) :
    ∃ r r2, exec i s = .next (s.complete r r2) := by
  obtain ⟨r, r2, hx⟩ := ExecResult.fault?_eq_none.mp ((resultOf_fault? s.params s.draws i).trans h)
  exact ⟨r, r2, exec_eq_complete hx⟩

/-- An edge from idle to busy is an accept, which clears CAUSE (R26). -/
theorem cause_eq_none_of_idle_busy {s t : State} (h : step s = .next t) (hs : s.st = .idle) (ht : t.st = .busy) :
    t.cause = 0b00 := by
  rcases step_cases h with ⟨-, rfl⟩ | ⟨-, -, -, rfl⟩ | ⟨-, -, -, rfl⟩ | ⟨-, hb, -, -⟩ | ⟨-, hb, -, -⟩
  · exact State.resetEdge_cause s
  · exact State.accept_cause ..
  · simp [hs] at ht
  · simp [hs] at hb
  · simp [hs] at hb

/-- Settles O37: `resultOf` faults with the cause of the table and completes where the table has none, and of the edges a
reset and an accept write `0b00` to CAUSE. -/
theorem causesAreRaisedExactlyByTheTable : Obligations.CausesAreRaisedExactlyByTheTable := by
  unfold Obligations.CausesAreRaisedExactlyByTheTable
  refine ⟨rfl, rfl, fun i s => ?_, fun s t h hcase => ?_⟩
  · cases hc : faultCause s.params i with
    | some c => exact ⟨exec_of_faultCause_some hc, State.raiseFault_cause s c⟩
    | none => exact exec_of_faultCause_none hc
  · rcases hcase with hr | ⟨hs, ht⟩
    · cases (step_eq_reset hr).symm.trans h
      exact State.resetEdge_cause s
    · exact cause_eq_none_of_idle_busy h hs ht

end Sys2Proof.Machine
end

section
/-!
PROOFS. The handshake: which edges take a request, and the first one after reset (10_state.md R26, R28; R172, R174).
-/

namespace Sys2Proof.Machine

open Sys2Proof.Safety

/-! ### Ready and offered (R28) -/

theorem State.inReady_iff {s : State} : s.inReady = true ↔ s.st = .idle ∧ s.input.rst = false := by
  simp [State.inReady]

@[simp] theorem State.accept_latched (s : State) (r : Request) (k : Nat) : (s.accept r k).latched = r := rfl

@[simp] theorem State.finish_st (s : State) (x : ExecResult) : (s.finish x).st = .idle := by cases x <;> rfl

/-- An offer to a CORE that is ready is taken at that edge (R26). -/
theorem step_takes_offer {s : State} (hready : s.inReady = true) (hv : s.input.inValid = true) :
    ∃ t, step s = .next t ∧ t.st = .busy ∧ t.latched = s.input.request ∧ t.accepts = s.accepts + 1 := by
  obtain ⟨hs, hr⟩ := State.inReady_iff.mp hready
  exact ⟨_, step_eq_accept hr hs hv, by simp⟩

/-- Every edge uses up its inputs, so no offer is kept for a later edge. -/
theorem step_pins {s t : State} (h : step s = .next t) : t.pins = s.pins.tail := by
  rcases step_cases h with ⟨-, rfl⟩ | ⟨-, -, -, rfl⟩ | ⟨-, -, -, rfl⟩ | ⟨-, -, -, rfl⟩ | ⟨-, -, -, rfl⟩
  · exact State.resetEdge_pins s
  · exact State.accept_pins ..
  · exact State.idleEdge_pins s
  · exact State.busyEdge_pins s
  · exact State.finish_pins ..

/-- An edge without both an offer and `in_ready` starts no request: of the five edges only the accept does. -/
theorem step_takes_nothing {s t : State} (h : step s = .next t) (hn : ¬ (s.input.inValid = true ∧ s.inReady = true)) :
    t.accepts = s.accepts ∧ (t.st = .busy → s.st = .busy) := by
  rcases step_cases h with ⟨-, rfl⟩ | ⟨hr, hs, hv, -⟩ | ⟨-, -, -, rfl⟩ | ⟨-, -, -, rfl⟩ | ⟨-, -, -, rfl⟩
  · simp
  · exact absurd ⟨hv, State.inReady_iff.mpr ⟨hs, hr⟩⟩ hn
  · simp
  · simp
  · simp

/-- Settles O45: a ready CORE takes the offer, and every edge but an accept takes none and drops its inputs. -/
theorem requestsAreTakenExactlyWhenReady : Obligations.RequestsAreTakenExactlyWhenReady := by
  unfold Obligations.RequestsAreTakenExactlyWhenReady
  refine fun s t h => ⟨fun ⟨hv, hready⟩ => ?_, fun hn => ?_, State.inReady_iff⟩
  · obtain ⟨u, hu, hst, hl, ha⟩ := step_takes_offer hready hv
    cases hu.symm.trans h
    exact ⟨ha, hst, hl⟩
  · obtain ⟨ha, hst⟩ := step_takes_nothing h hn
    exact ⟨ha, step_pins h, hst⟩

/-! ### The first offer (R172) -/

/-- An idle CORE waits through any number of edges without an offer and takes the first one that comes. -/
theorem runEdges_takes_first_offer {quiet rest : List Pins} {offer : Pins} {s : State}
    (hq : ∀ q ∈ quiet, q.rst = false ∧ q.inValid = false) (hr : offer.rst = false) (hv : offer.inValid = true)
    (hs : s.st = .idle) (hp : s.pins = quiet ++ offer :: rest) :
    ∃ t, runEdges (quiet.length + 1) s = .next t ∧
      t.st = .busy ∧ t.latched = offer.request ∧ t.accepts = s.accepts + 1 := by
  induction quiet generalizing s with
  | nil =>
    obtain rfl := State.input_of_pins hp
    obtain ⟨t, ht, hspec⟩ := step_takes_offer (State.inReady_iff.mpr ⟨hs, hr⟩) hv
    exact ⟨t, runEdges_succ ht 0, hspec⟩
  | cons q quiet ih =>
    obtain ⟨⟨hqr, hqv⟩, hrest⟩ := List.forall_mem_cons.mp hq
    obtain rfl := State.input_of_pins hp
    rw [List.length_cons, runEdges_succ (step_eq_idleEdge hqr hs hqv)]
    exact ih (s := s.idleEdge) hrest hs (congrArg List.tail hp)

/-- Settles O43: CORE is idle in the state of reset and after a reset edge, and an idle CORE takes the first offer. -/
theorem firstOfferAfterResetIsAccepted : Obligations.FirstOfferAfterResetIsAccepted := by
  unfold Obligations.FirstOfferAfterResetIsAccepted
  refine fun quiet offer rest hq hr hv => ⟨fun p => ?_, fun s r hrst hp => ?_⟩
  · exact runEdges_takes_first_offer (s := { State.resetWith p with pins := quiet ++ offer :: rest }) hq hr hv rfl rfl
  · obtain rfl := State.input_of_pins hp
    rw [runEdges_succ (step_eq_reset hrst)]
    exact runEdges_takes_first_offer (s := s.resetEdge) hq hr hv rfl (congrArg List.tail hp)

end Sys2Proof.Machine
end

section
/-!
PROOFS. Request words and assembly lines (30_encoding.md R60, R69, R71).
-/

namespace Sys2Proof

/-! ### A request and its 132 bits (R60) -/

/-- Each bit of a word is a bit of one of the three fields. -/
theorem Request.getElem_toWord (r : Request) (i : Nat) (h : i < 132) :
    r.toWord[i] =
      if i < 4 then r.op.getLsbD i else if i < 68 then r.a.getLsbD (i - 4) else r.b.getLsbD (i - 68) := by
  by_cases h4 : i < 4
  · have h68 : i < 68 := by omega
    simp [toWord, h4, h68]
  · have hop : r.op.getLsbD i = false := BitVec.getLsbD_of_ge _ _ (by omega)
    by_cases h68 : i < 68
    · simp [toWord, h4, h68, hop]
    · have ha : r.a.getLsbD (i - 4) = false := BitVec.getLsbD_of_ge _ _ (by omega)
      simp [toWord, h4, h68, hop, ha]

theorem Request.toWord_ofWord (w : BitVec 132) : (Request.ofWord w).toWord = w := by
  ext i hi
  rw [getElem_toWord]
  split_ifs with h4 h68
  · simp [ofWord, h4, BitVec.getLsbD_eq_getElem hi]
  · have ha : i - 4 < 64 := by omega
    have hi' : 4 + (i - 4) = i := by omega
    simp [ofWord, ha, hi', BitVec.getLsbD_eq_getElem hi]
  · have hb : i - 68 < 64 := by omega
    have hi' : 68 + (i - 68) = i := by omega
    simp [ofWord, hb, hi', BitVec.getLsbD_eq_getElem hi]

theorem Request.ofWord_toWord (r : Request) : Request.ofWord r.toWord = r := by
  have hop : r.toWord.extractLsb' 0 4 = r.op := by
    ext i hi
    rw [BitVec.getElem_extractLsb', BitVec.getLsbD_eq_getElem (by omega), getElem_toWord, if_pos (by omega)]
    simp [hi]
  have ha : r.toWord.extractLsb' 4 64 = r.a := by
    ext i hi
    rw [BitVec.getElem_extractLsb', BitVec.getLsbD_eq_getElem (by omega), getElem_toWord, if_neg (by omega),
      if_pos (by omega)]
    simp [hi]
  have hb : r.toWord.extractLsb' 68 64 = r.b := by
    ext i hi
    rw [BitVec.getElem_extractLsb', BitVec.getLsbD_eq_getElem (by omega), getElem_toWord, if_neg (by omega),
      if_neg (by omega)]
    simp [hi]
  rw [ofWord, hop, ha, hb]

/-! ### The decoder on numbers (R60, R71) -/

/-- A number below `2^132` is decoded as its 132 bits. -/
theorem decodeWord_toNat (w : BitVec 132) : decodeWord w.toNat = .instr (decode (.ofWord w)) := by
  rw [decodeWord, if_pos w.isLt, BitVec.ofNat_toNat, BitVec.setWidth_eq]

theorem decodeWord_of_ge {w : Nat} (h : 2 ^ 132 ≤ w) : decodeWord w = .rejected .notARequest :=
  if_neg (Nat.not_lt.mpr h)

theorem decodeWord_encodeWord (i : Instr) : decodeWord (encodeWord i) = .instr i := by
  rw [encodeWord, decodeWord_toNat, Request.ofWord_toWord, decode_encode]

theorem encodeWord_decode_ofWord (w : BitVec 132) : encodeWord (decode (.ofWord w)) = w.toNat := by
  rw [encodeWord, encode_decode, Request.toWord_ofWord]

/-! ### Literals of an assembly line (R69) -/

theorem literal32_toNat (x : Int) : ((literal32 x).toNat : Int) = x % 2 ^ 32 := by
  simp [literal32, BitVec.toNat_ofInt]
  omega

theorem literal64_toNat (x : Int) : ((literal64 x).toNat : Int) = x % 2 ^ 64 := by
  simp [literal64, BitVec.toNat_ofInt]
  omega

/-- A literal of one of the two widths. -/
theorem literal_toNat (words : Bool) (x : Int) :
    ((if words then literal32 x else literal64 x).toNat : Int) = x % (if words then 2 ^ 32 else 2 ^ 64) := by
  cases words with
  | true => exact literal32_toNat x
  | false => exact literal64_toNat x

end Sys2Proof

namespace Sys2Proof.Machine

open Sys2Proof.Safety

/-- Settles O3: `Request.ofWord` and `decode` undo `Request.toWord` and `encode`. -/
theorem decodeOfEncode : Obligations.DecodeOfEncode := by
  unfold Obligations.DecodeOfEncode
  exact fun i => ⟨(encode i).toWord.isLt, decodeWord_encodeWord i⟩

/-- Settles O4: a number below 2^132 is the value of its 132 bits, which `Request.ofWord` and `decode` read without
loss. -/
theorem encodeOfDecode : Obligations.EncodeOfDecode := by
  unfold Obligations.EncodeOfDecode
  refine ⟨fun w hw => ?_, fun w hw => decodeWord_of_ge hw⟩
  obtain ⟨v, rfl⟩ : ∃ v : BitVec 132, v.toNat = w := ⟨.ofNatLT w hw, rfl⟩
  exact ⟨_, decodeWord_toNat v, encodeWord_decode_ofWord v⟩

/-- Settles O5: the line assembles to the op of its mnemonic with each literal at its width. -/
theorem assemblyReducesLiterals : Obligations.AssemblyReducesLiterals := by
  unfold Obligations.AssemblyReducesLiterals
  exact fun m op x y hm => ⟨assembleOp op x y, by rw [assemble, hm, Option.map_some], rfl,
    literal_toNat op.readsWords x, literal_toNat (op.readsWords || op.readsCount) y⟩

/-- Settles O2: each word is the encoding of its instruction, and the last number has 133 bits. -/
theorem sampleWordsDecode : Obligations.SampleWordsDecode := by
  unfold Obligations.SampleWordsDecode
  exact ⟨decodeWord_encodeWord (.mul32 0xFFFFFFFF 2), decodeWord_encodeWord (.div32 0xFFFFFFF9 2),
    decodeWord_encodeWord (.divu64 0x100000000 3), decodeWord_encodeWord (.sll64 0x100000001 32),
    decodeWord_encodeWord (.reserved0011 1 2), decodeWord_of_ge (by decide)⟩

/-- An opcode-table word that fits its bits is read by `decode` from the request it stands for. -/
theorem decode_ofTableWord {nbits w : Nat} {i : Instr} (h : decodeTableWord nbits w = some i) :
    decode (.ofTableWord nbits w) = i := by
  unfold decodeTableWord decodeWord at h
  split at h
  · exact Option.some.inj h
  · simp [Decoded.instr?] at h

/-- Settles O47: the placed request is busy with one edge to go and no reset on that edge, so that edge ends it. -/
theorem placedWordRunsNext : Obligations.PlacedWordRunsNext := by
  unfold Obligations.PlacedWordRunsNext
  intro s nbits w i _ h
  obtain rfl := decode_ofTableWord h
  rw [step_eq_finish (s := s.withFetchWord nbits w) rfl rfl le_rfl, exec_eq_finish]
  rfl

end Sys2Proof.Machine
end

section
/-!
PROOFS. What one edge and any number of edges do to the registers, and when a request ends (10_state.md R25, R27;
60_exceptions.md R152, R153; 70_reset_and_hazards.md R171, R180, R181).
-/

namespace Sys2Proof.Machine

open Sys2Proof.Safety

/-! ### Reset edges and the edge that ends a request (R27, R171) -/

/-- Settles O42: the edge is `resetEdge`, and `in_ready` is 0 while `rst = 1`. -/
theorem resetDominates : Obligations.ResetDominates := by
  unfold Obligations.ResetDominates
  exact fun s hr => ⟨by simp [State.inReady, hr], _, step_eq_reset hr, by simp⟩

/-- Settles O46: both sides finish the latched request with its outcome. -/
theorem stepRunsTheLatchedRequest : Obligations.StepRunsTheLatchedRequest := by
  unfold Obligations.StepRunsTheLatchedRequest
  rintro s _ hs hr hc rfl
  rw [step_eq_finish hr hs hc, exec_eq_finish]

@[simp] theorem State.finish_params (s : State) (x : ExecResult) : (s.finish x).params = s.params := by cases x <;> rfl

/-- The edge that ends a request raises exactly one of the two pulses. -/
@[simp] theorem State.finish_valid (s : State) (x : ExecResult) : (s.finish x).valid = !(s.finish x).flt := by
  cases x <;> rfl

/-- An edge that ends a request with `fault` is a fault entry. -/
theorem exec_faults_of_flt {i : Instr} {s t : State} (h : exec i s = .next t) (hf : t.flt = true) :
    ∃ c, t = s.raiseFault c := by
  cases (exec_eq_finish i s).symm.trans h
  obtain ⟨r, r2, -, ht⟩ | ⟨c, -, ht⟩ := s.finish_cases (resultOf s.params s.draws i)
  · simp [ht] at hf
  · exact ⟨c, ht⟩

/-- Settles O39: the edge is `complete`, whose frame the laws of the state give. -/
theorem completionWritesItsRegistersOnly : Obligations.CompletionWritesItsRegistersOnly := by
  unfold Obligations.CompletionWritesItsRegistersOnly
  intro i s t h hv
  obtain ⟨r, r2, -, rfl⟩ := exec_completes_of_valid h hv
  exact ⟨⟨r, r2, rfl, rfl⟩, by simp⟩

/-! ### Pulses (R25, R27) -/

/-- An edge pulses exactly where it ends a request. -/
theorem step_pulses_iff {s t : State} (h : step s = .next t) :
    t.valid = true ∨ t.flt = true ↔ s.input.rst = false ∧ s.st = .busy ∧ t.st = .idle := by
  rcases step_cases h with ⟨hr, rfl⟩ | ⟨-, hs, -, rfl⟩ | ⟨-, hs, -, rfl⟩ | ⟨-, hs, -, rfl⟩ | ⟨hr, hs, -, rfl⟩
  · simp [hr]
  · simp
  · simp [hs]
  · simp [hs]
  · simp [hr, hs]

/-- No edge raises both pulses. -/
theorem step_not_both_pulses {s t : State} (h : step s = .next t) : ¬ (t.valid = true ∧ t.flt = true) := by
  rcases step_cases h with ⟨-, rfl⟩ | ⟨-, -, -, rfl⟩ | ⟨-, -, -, rfl⟩ | ⟨-, -, -, rfl⟩ | ⟨-, -, -, rfl⟩
  · simp
  · simp
  · simp
  · simp
  · simp

/-- Settles O49: of the five edges only the one that ends a request pulses, and it raises one of the two outputs. -/
theorem pulsesFollowTheEndOnly : Obligations.PulsesFollowTheEndOnly := by
  unfold Obligations.PulsesFollowTheEndOnly
  exact fun s t h => ⟨step_pulses_iff h, step_not_both_pulses h⟩

/-- After an edge from an idle CORE both outputs are 0. -/
theorem step_idle_clears_pulses {s t : State} (hs : s.st = .idle) (h : step s = .next t) :
    t.flt = false ∧ t.valid = false := by
  have hn : ¬ (t.valid = true ∨ t.flt = true) := fun hp => by
    obtain ⟨-, hb, -⟩ := (step_pulses_iff h).mp hp
    simp [hs] at hb
  simpa [and_comm] using hn

/-- Settles O38: the edge is `raiseFault`, whose frame the laws of the state give, and it leaves CORE idle, so the next
edge ends the pulse. -/
theorem faultEntryWritesItsRegistersOnly : Obligations.FaultEntryWritesItsRegistersOnly := by
  unfold Obligations.FaultEntryWritesItsRegistersOnly
  intro i s t h hf
  obtain ⟨c, rfl⟩ := exec_faults_of_flt h hf
  exact ⟨⟨c, rfl, rfl⟩, rfl, rfl, rfl, rfl, rfl, rfl, rfl, rfl, rfl, rfl, rfl, rfl, rfl,
    fun u hu => step_idle_clears_pulses (State.raiseFault_st s c) hu⟩

/-! ### Any number of edges -/

theorem step_total (s : State) : ∃ t, step s = .next t := by
  cases hr : s.input.rst with
  | true => exact ⟨_, step_eq_reset hr⟩
  | false =>
    cases hs : s.st with
    | idle =>
      cases hv : s.input.inValid with
      | true => exact ⟨_, step_eq_accept hr hs hv⟩
      | false => exact ⟨_, step_eq_idleEdge hr hs hv⟩
    | busy =>
      by_cases hc : s.hidden.count ≤ 1
      · exact ⟨_, step_eq_finish hr hs hc⟩
      · exact ⟨_, step_eq_busyEdge hr hs (Nat.not_le.mp hc)⟩

/-- Settles O53: every edge has a next state, by induction on the number of edges. -/
theorem everyEdgeHasANextState : Obligations.EveryEdgeHasANextState := by
  unfold Obligations.EveryEdgeHasANextState
  intro k
  induction k with
  | zero => exact fun s => ⟨s, rfl⟩
  | succ k ih =>
    intro s
    obtain ⟨u, hu⟩ := step_total s
    rw [runEdges_succ hu]
    exact ih u

/-- A reflexive and transitive relation that holds over every edge holds over every run. -/
theorem runEdges_induction {R : State → State → Prop} (hrefl : ∀ s, R s s)
    (htrans : ∀ {s u t}, R s u → R u t → R s t) (hstep : ∀ {s t}, step s = .next t → R s t) (k : Nat) {s t : State}
    (h : runEdges k s = .next t) : R s t := by
  induction k generalizing s with
  | zero =>
    cases h
    exact hrefl _
  | succ k ih =>
    obtain ⟨u, hu⟩ := step_total s
    rw [runEdges_succ hu] at h
    exact htrans (hstep hu) (ih h)

theorem step_params {s t : State} (h : step s = .next t) : t.params = s.params := by
  rcases step_cases h with ⟨-, rfl⟩ | ⟨-, -, -, rfl⟩ | ⟨-, -, -, rfl⟩ | ⟨-, -, -, rfl⟩ | ⟨-, -, -, rfl⟩
  · exact State.resetEdge_params s
  · exact State.accept_params ..
  · exact State.idleEdge_params s
  · exact State.busyEdge_params s
  · exact State.finish_params ..

/-- Settles O52: no edge writes the parameters, and so no run does. -/
theorem parametersNeverChange : Obligations.ParametersNeverChange := by
  unfold Obligations.ParametersNeverChange
  exact fun k s t h => runEdges_induction (R := fun s t => t.params = s.params) (fun _ => rfl)
    (fun h1 h2 => h2.trans h1) step_params k h

/-- An edge adds an entry to the record with a `fault` pulse, and leaves the record without one (R153). -/
theorem step_faults {s t : State} (h : step s = .next t) :
    (t.flt = true ∧ ∃ c : Fault, t.cause = c.code ∧ t.faults = s.faults ++ [⟨s.accepts, c⟩]) ∨
    (t.flt = false ∧ t.faults = s.faults) := by
  rcases step_cases h with ⟨-, rfl⟩ | ⟨-, -, -, rfl⟩ | ⟨-, -, -, rfl⟩ | ⟨-, -, -, rfl⟩ | ⟨-, -, -, rfl⟩
  · exact .inr ⟨rfl, rfl⟩
  · exact .inr ⟨rfl, rfl⟩
  · exact .inr ⟨rfl, rfl⟩
  · exact .inr ⟨rfl, rfl⟩
  · obtain ⟨r, r2, -, hx⟩ | ⟨c, -, hx⟩ := s.finish_cases (resultOf s.params s.draws (decode s.latched))
    · exact .inr (by simp [hx])
    · exact .inl ⟨by simp [hx], c, by simp [hx]⟩

theorem step_faults_prefix {s t : State} (h : step s = .next t) : s.faults <+: t.faults := by
  rcases step_faults h with ⟨-, c, -, ht⟩ | ⟨-, ht⟩
  · exact ht ▸ List.prefix_append ..
  · exact ht ▸ List.prefix_rfl

/-- Settles O40: an edge appends an entry or leaves the record, so over any run the record only grows. -/
theorem faultRecordIsNeverCleared : Obligations.FaultRecordIsNeverCleared := by
  unfold Obligations.FaultRecordIsNeverCleared
  exact ⟨fun k s t h => runEdges_induction (R := fun s t => s.faults <+: t.faults) (fun _ => List.prefix_rfl)
    List.IsPrefix.trans step_faults_prefix k h, fun s t => step_faults⟩

/-! ### Latencies (R180) -/

theorem maxLatency_pos (p : Params) (r : Request) : 1 ≤ maxLatency p r := le_max_left ..

/-- A latency is the maximum, a drawn number within it, or the reference count cut to it. -/
theorem requestLatency_cases (p : Params) (r : Request) (edge : Nat) :
    requestLatency p r edge = maxLatency p r ∨
    requestLatency p r edge = 1 + Config.drawLatency edge % maxLatency p r ∨
    requestLatency p r edge = min (maxLatency p r) (referenceDivLatency r) := by
  unfold requestLatency
  by_cases hf : (faultCause p (decode r)).isSome
  · exact .inl (if_pos hf)
  · rw [if_neg hf]
    cases r.family with
    | multiply | shift => exact .inl rfl
    | divide32 | divide64 =>
      cases p.divLatency with
      | drawn => exact .inr (.inl rfl)
      | reference => exact .inr (ite_eq_or_eq ..)

/-- A latency is at least 1 and at most the maximum of its request. -/
theorem requestLatency_bounds (p : Params) (r : Request) (edge : Nat) :
    1 ≤ requestLatency p r edge ∧ requestLatency p r edge ≤ maxLatency p r := by
  have htop := maxLatency_pos p r
  have hdrawn : Config.drawLatency edge % maxLatency p r < maxLatency p r := Nat.mod_lt _ htop
  have href : 2 ≤ referenceDivLatency r := by simp only [referenceDivLatency]; omega
  rcases requestLatency_cases p r edge with h | h | h <;> omega

/-! ### The end of an accepted request (R181) -/

/-- A request in flight with `n + 1` edges to go and no reset among them ends at the last of these. -/
theorem runEdges_end {n : Nat} {s : State} (hs : s.st = .busy) (hc : s.hidden.count = n + 1)
    (hp : ∀ p ∈ s.pins.take (n + 1), p.rst = false) :
    ∃ t, runEdges (n + 1) s = .next t ∧ Ended t ∧ t.accepts = s.accepts := by
  have hr := State.input_rst_of_take hp
  induction n generalizing s with
  | zero =>
    rw [runEdges_succ (step_eq_finish hr hs hc.le)]
    exact ⟨_, rfl, ⟨State.finish_st .., by simp⟩, State.finish_accepts ..⟩
  | succ n ih =>
    rw [runEdges_succ (step_eq_busyEdge hr hs (by omega))]
    have hp' := rst_of_take_tail hp
    exact ih (s := s.busyEdge) hs (by simp [Hidden.tick, hc]) hp' (State.input_rst_of_take hp')

/-- Settles O56: with `L` the latency of the accept, CORE is in flight over the edges before `L + 1` and ends there. -/
theorem acceptedRequestsEndInTime : Obligations.AcceptedRequestsEndInTime := by
  unfold Obligations.AcceptedRequestsEndInTime
  intro s hs hr hv
  obtain ⟨hpos, hmax⟩ := requestLatency_bounds s.params s.input.request s.edge
  refine ⟨_, hpos, hmax, fun k hk hkL hp => ?_, fun hp => ?_⟩
  · obtain ⟨n, rfl⟩ : ∃ n, k = n + 1 := ⟨k - 1, by omega⟩
    exact ⟨_, runEdges_accept hs hv (by omega) hp, by simp, iterate_busyEdge_pulses rfl rfl n⟩
  · obtain ⟨n, hn⟩ : ∃ n, requestLatency s.params s.input.request s.edge = n + 1 :=
      ⟨_, (Nat.sub_add_cancel hpos).symm⟩
    rw [hn] at hp ⊢
    rw [runEdges_succ (step_eq_accept hr hs hv)]
    exact runEdges_end rfl hn (rst_of_take_tail hp)

end Sys2Proof.Machine
end

section
/-!
PROOFS. The invariant of CORE, its transaction-level model and its hidden registers (10_state.md R27, R29, R30, R35,
R48; 60_exceptions.md R150, R152, R153).
-/

namespace Sys2Proof.Machine

open Sys2Proof.Safety

/-! ### Each edge keeps the invariant -/

section Inv

variable {s : State} (hi : Inv s)
include hi

theorem inv_resetEdge : Inv s.resetEdge where
  cause_known := by simp
  busy_clean := by simp
  busy_count := by simp
  valid_clean := by simp
  flt_caused := by simp
  idle_defined := by simp
  cause_recorded := by simp
  record_ordered := hi.record_ordered
  record_past f hf := ⟨(hi.record_past f hf).left, by simp⟩

/-- The latency of an accept is within the bounds of its request (R180), and the entries of the record belong to earlier
requests. -/
theorem inv_accept (r : Request) : Inv (s.accept r (requestLatency s.params r s.edge)) where
  cause_known := by simp
  busy_clean := by simp
  busy_count _ := by simpa [Hidden.load] using requestLatency_bounds s.params r s.edge
  valid_clean := by simp
  flt_caused := by simp
  idle_defined := by simp
  cause_recorded := by simp
  record_ordered := hi.record_ordered
  record_past f hf := by
    obtain ⟨hle, -⟩ := hi.record_past f hf
    simp only [State.accept_accepts]
    omega

theorem inv_idleEdge (hs : s.st = .idle) : Inv s.idleEdge where
  cause_known := hi.cause_known
  busy_clean := by simp [hs]
  busy_count := by simp [hs]
  valid_clean := by simp
  flt_caused := by simp
  idle_defined := hi.idle_defined
  cause_recorded := hi.cause_recorded
  record_ordered := hi.record_ordered
  record_past := hi.record_past

/-- The latency counter goes down by one and does not reach 0 before the request ends. -/
theorem inv_busyEdge (hs : s.st = .busy) (hc : 1 < s.hidden.count) : Inv s.busyEdge where
  cause_known := hi.cause_known
  busy_clean _ := by
    obtain ⟨-, -, hclean⟩ := hi.busy_clean hs
    exact ⟨rfl, rfl, hclean⟩
  busy_count _ := by
    obtain ⟨-, hmax⟩ := hi.busy_count hs
    have hle : s.hidden.count - 1 ≤ maxLatency s.params s.latched := by omega
    exact ⟨Nat.le_sub_of_add_le hc, hle⟩
  valid_clean := by simp
  flt_caused := by simp
  idle_defined := hi.idle_defined
  cause_recorded := hi.cause_recorded
  record_ordered := hi.record_ordered
  record_past := hi.record_past

/-- A request in flight has no cause, and a completion writes none. -/
theorem inv_complete (hs : s.st = .busy) (r r2 : DWord) : Inv (s.complete r r2) := by
  obtain ⟨-, -, hcause, -, -⟩ := hi.busy_clean hs
  exact {
    cause_known := hi.cause_known
    busy_clean := by simp
    busy_count := by simp
    valid_clean := by simp [hcause]
    flt_caused := by simp
    idle_defined := by simp
    cause_recorded := by simp [hcause]
    record_ordered := hi.record_ordered
    record_past := fun f hf => ⟨(hi.record_past f hf).left, by simp⟩ }

/-- The new entry is for the request in flight, which has none yet. -/
theorem inv_raiseFault (hs : s.st = .busy) (c : Fault) : Inv (s.raiseFault c) where
  cause_known := Fault.code_ne_reserved c
  busy_clean := by simp
  busy_count := by simp
  valid_clean := by simp
  flt_caused _ := Fault.code_ne_none c
  idle_defined _ h := absurd h (Fault.code_ne_none c)
  cause_recorded _ := ⟨rfl, rfl, c, rfl, by simp⟩
  record_ordered := by
    have hnew : ∀ f ∈ s.faults, f.request < s.accepts := fun f hf => (hi.record_past f hf).right hs
    simpa [List.pairwise_append, hi.record_ordered] using hnew
  record_past f hf := by
    rcases List.mem_append.mp hf with hold | hnew
    · exact ⟨(hi.record_past f hold).left, by simp⟩
    · simp [List.mem_singleton.mp hnew]

theorem inv_finish (hs : s.st = .busy) (x : ExecResult) : Inv (s.finish x) := by
  cases x with
  | ok r r2 => exact inv_complete hi hs r r2
  | fault c => exact inv_raiseFault hi hs c

theorem inv_step {t : State} (h : step s = .next t) : Inv t := by
  rcases step_cases h with ⟨-, rfl⟩ | ⟨-, -, -, rfl⟩ | ⟨-, hs, -, rfl⟩ | ⟨-, hs, hc, rfl⟩ | ⟨-, hs, -, rfl⟩
  · exact inv_resetEdge hi
  · exact inv_accept hi _
  · exact inv_idleEdge hi hs
  · exact inv_busyEdge hi hs hc
  · exact inv_finish hi hs _

end Inv

/-- Settles O55: each of the five edges keeps the invariant. -/
theorem everyEdgeKeepsTheInvariant : Obligations.EveryEdgeKeepsTheInvariant := by
  unfold Obligations.EveryEdgeKeepsTheInvariant
  exact fun s t hi h => inv_step hi h

/-- Settles O54: the state of reset is idle, with both results 0, no cause and an empty record. -/
theorem resetMeetsTheInvariant : Obligations.ResetMeetsTheInvariant := by
  unfold Obligations.ResetMeetsTheInvariant
  exact fun p => by constructor <;> simp [State.resetWith]

/-! ### The transaction-level model (R35) -/

/-- The event that ends a request has the outcome of `Exec`, and the outputs report it. -/
theorem apply_finish (s : State) (hs : s.st = .busy) :
    s.abstract.apply s.params (.finish s.draws) =
      some ((s.finish (resultOf s.params s.draws (decode s.latched))).abstract,
        (s.finish (resultOf s.params s.draws (decode s.latched))).emitted) := by
  have hx : execRequest s.params s.draws ⟨s.abstract.opl, s.abstract.al, s.abstract.bl⟩ =
    resultOf s.params s.draws (decode s.latched) := rfl
  rw [TState.apply, if_pos (c := s.abstract.st = .busy) hs, hx]
  cases resultOf s.params s.draws (decode s.latched) with
  | ok r r2 => rfl
  | fault c =>
    have hname := State.causeName_of_code (s.raiseFault c) c rfl
    have hemit : (s.raiseFault c).emitted = some (.faulted c) := by simp [State.emitted, hname]
    rw [State.finish_fault, hemit]
    rfl

/-- Settles O57: the five edges are the reset, the accept, two ticks and the event that ends a request. -/
theorem everyEdgeIsATransactionEvent : Obligations.EveryEdgeIsATransactionEvent := by
  unfold Obligations.EveryEdgeIsATransactionEvent
  intro s
  obtain ⟨t, h⟩ := step_total s
  refine ⟨t, h, ?_⟩
  rcases step_cases h with ⟨hr, rfl⟩ | ⟨hr, hs, hv, rfl⟩ | ⟨hr, hs, hv, rfl⟩ | ⟨hr, hs, hc, rfl⟩ | ⟨hr, hs, hc, rfl⟩
  · rw [State.event, if_pos hr]
    rfl
  · have he : s.event = .accept s.input.request := by simp [State.event, hr, hs, hv]
    rw [he, TState.apply, if_pos (c := s.abstract.st = .idle) hs]
    rfl
  · have he : s.event = .tick := by simp [State.event, hr, hs, hv]
    rw [he]
    rfl
  · have he : s.event = .tick := by simp [State.event, hr, hs, Nat.not_le.mpr hc]
    rw [he]
    rfl
  · have he : s.event = .finish s.draws := by simp [State.event, hr, hs, hc]
    rw [he, apply_finish s hs]

/-! ### The datapath registers and the multiplier's structure (R30, R80) -/

section Datapath

variable (s : State) (d : DivRegs) (m : MulRegs) (impl : MulImpl)

@[simp] theorem withDatapath_st : (withDatapath s d m impl).st = s.st := rfl
@[simp] theorem withDatapath_input : (withDatapath s d m impl).input = s.input := rfl
@[simp] theorem withDatapath_count : (withDatapath s d m impl).hidden.count = s.hidden.count := rfl

/-- The outcome of a request does not read the multiplier's structure. -/
theorem resultOf_withDatapath (i : Instr) :
    resultOf (withDatapath s d m impl).params (withDatapath s d m impl).draws i = resultOf s.params s.draws i := by
  cases i <;> rfl

theorem faultCause_withDatapath (i : Instr) :
    faultCause (withDatapath s d m impl).params i = faultCause s.params i := by
  cases i <;> rfl

/-- Nor does the latency of a request. -/
theorem requestLatency_withDatapath (r : Request) (edge : Nat) :
    requestLatency (withDatapath s d m impl).params r edge = requestLatency s.params r edge := by
  simp only [requestLatency, maxLatency, faultCause_withDatapath]
  rfl

theorem finish_withDatapath (x : ExecResult) :
    (withDatapath s d m impl).finish x = withDatapath (s.finish x) d m impl := by
  cases x <;> rfl

end Datapath

/-- Settles O58: a reset and an accept write all datapath registers, an idle edge and the edge that ends a request keep
them, and a busy edge moves them by themselves; nothing else reads them. -/
theorem datapathRegistersNeverShow : Obligations.DatapathRegistersNeverShow := by
  unfold Obligations.DatapathRegistersNeverShow
  intro s t d m impl h
  rcases step_cases h with ⟨hr, rfl⟩ | ⟨hr, hs, hv, rfl⟩ | ⟨hr, hs, hv, rfl⟩ | ⟨hr, hs, hc, rfl⟩ | ⟨hr, hs, hc, rfl⟩
  · exact ⟨_, _, step_eq_reset (s := withDatapath s d m impl) hr⟩
  · rw [step_eq_accept (s := withDatapath s d m impl) hr hs hv, requestLatency_withDatapath]
    exact ⟨_, _, rfl⟩
  · exact ⟨_, _, step_eq_idleEdge (s := withDatapath s d m impl) hr hs hv⟩
  · exact ⟨_, _, step_eq_busyEdge (s := withDatapath s d m impl) hr hs hc⟩
  · rw [step_eq_finish (s := withDatapath s d m impl) hr hs hc, resultOf_withDatapath, finish_withDatapath]
    exact ⟨d, m, rfl⟩

end Sys2Proof.Machine
end

section
/-!
PROOFS. The multiplier structures and the multiplier's registers against the product (40_multiply.md R80 to R87).
-/

namespace Sys2Proof.Machine

open Sys2Proof.Safety

/-! ### Halves as numbers (R8, R84) -/

theorem toNat_hi (x : DWord) : (hi x).toNat = x.toNat / 2 ^ 32 := by
  have h := x.isLt
  simp only [hi, BitVec.extractLsb'_toNat, Nat.shiftRight_eq_div_pow]
  omega

theorem toNat_lo (x : DWord) : (lo x).toNat = x.toNat % 2 ^ 32 := by
  simp [lo]

theorem toNat_assembleHalves (h l : Word) : (assembleHalves h l).toNat = h.toNat * 2 ^ 32 + l.toNat := by
  rw [assembleHalves, BitVec.toNat_append, ← Nat.shiftLeft_add_eq_or_of_lt l.isLt, Nat.shiftLeft_eq]

theorem toNat_loHalf (w : Word) : (loHalf w).toNat = w.toNat % 2 ^ 16 := by
  rw [loHalf, BitVec.toNat_and]
  exact Nat.and_two_pow_sub_one_eq_mod w.toNat 16

theorem toNat_hiHalf (w : Word) : (hiHalf w).toNat = w.toNat / 2 ^ 16 := by
  rw [hiHalf, BitVec.toNat_ushiftRight, Nat.shiftRight_eq_div_pow]

theorem lo_ofNat (n : Nat) : lo (BitVec.ofNat 64 n) = BitVec.ofNat 32 n := by
  apply BitVec.eq_of_toNat_eq
  simp [toNat_lo]

theorem ofNat_toNat_mul {w : Nat} (x y : BitVec w) : BitVec.ofNat w (x.toNat * y.toNat) = x * y := by
  simp [BitVec.ofNat_mul]

theorem ofInt_toInt_mul {w : Nat} (x y : BitVec w) : BitVec.ofInt w (x.toInt * y.toInt) = x * y := by
  simp [BitVec.ofInt_mul]

/-- Settles O10: the unsigned and the signed product are one product of bit vectors, and the low word of the double word
that holds a product is the product modulo 2^32. -/
theorem lowProductsIgnoreSign : Obligations.LowProductsIgnoreSign := by
  unfold Obligations.LowProductsIgnoreSign
  refine fun a b s => ⟨exec_eq_complete ?_, exec_eq_complete ?_, ?_, _, exec_eq_complete rfl, exec_eq_complete ?_⟩
  · exact congrArg (fun w => ExecResult.ok (zext64 w) 0) ((ofNat_toNat_mul ..).trans (ofInt_toInt_mul ..).symm)
  · exact congrArg (ExecResult.ok · 0) ((ofNat_toNat_mul ..).trans (ofInt_toInt_mul ..).symm)
  · rw [exec_eq_finish, exec_eq_finish, resultOf, resultOf, resultMul64, resultMul64, Nat.mul_comm]
  · exact congrArg (fun w => ExecResult.ok (zext64 w) 0) (lo_ofNat _).symm

/-! ### Half-word decomposition (R84) -/

/-- A product of two half words keeps all its bits in a word, and room for the carries: it is at most `(2^16 - 1)^2`. -/
theorem toNat_half_product {x y : Word} (hx : x.toNat < 2 ^ 16) (hy : y.toNat < 2 ^ 16) :
    (x * y).toNat = x.toNat * y.toNat ∧ (x * y).toNat ≤ 0xFFFE0001 := by
  have hle : x.toNat * y.toNat ≤ 0xFFFF * 0xFFFF := Nat.mul_le_mul (by omega) (by omega)
  have heq : (x * y).toNat = x.toNat * y.toNat := BitVec.toNat_mul_of_lt (by omega)
  exact ⟨heq, by omega⟩

/-- Where no carry is lost the three stages add the four partial products at their places. -/
theorem toNat_highSum_of_bounds {r : MulRegs} (hll : r.pll.toNat ≤ 0xFFFE0001) (hhl : r.phl.toNat ≤ 0xFFFE0001)
    (hlh : r.plh.toNat ≤ 0xFFFE0001) (hhh : r.phh.toNat ≤ 0xFFFE0001) :
    r.carrySums.highSum.toNat =
      r.phh.toNat * 2 ^ 32 + r.phl.toNat * 2 ^ 16 + r.plh.toNat * 2 ^ 16 + r.pll.toNat := by
  have h2 : r.sum2.toNat = r.phl.toNat + r.pll.toNat / 2 ^ 16 := by
    rw [MulRegs.sum2, BitVec.toNat_add, toNat_hiHalf]
    omega
  have h3 : r.sum3.toNat = r.plh.toNat + r.sum2.toNat % 2 ^ 16 := by
    rw [MulRegs.sum3, BitVec.toNat_add, toNat_loHalf]
    omega
  simp only [MulRegs.carrySums, MulRegs.highSum, toNat_assembleHalves, BitVec.toNat_add, toNat_hiHalf, toNat_loHalf,
    BitVec.toNat_shiftLeft, Nat.shiftLeft_eq]
  omega

theorem toNat_loHalf_lt (w : Word) : (loHalf w).toNat < 2 ^ 16 := by
  rw [toNat_loHalf]
  omega

theorem toNat_hiHalf_lt (w : Word) : (hiHalf w).toNat < 2 ^ 16 := by
  rw [toNat_hiHalf]
  omega

theorem toNat_eq_halves (w : Word) : w.toNat = (hiHalf w).toNat * 2 ^ 16 + (loHalf w).toNat := by
  rw [toNat_loHalf, toNat_hiHalf]
  omega

/-- Settles O11: each partial product is at most (2^16 - 1)^2, so no sum overflows. -/
theorem halfWordMultiplyIsExact : Obligations.HalfWordMultiplyIsExact := by
  unfold Obligations.HalfWordMultiplyIsExact
  intro x y
  obtain ⟨ell, hll⟩ := toNat_half_product (toNat_loHalf_lt x) (toNat_loHalf_lt y)
  obtain ⟨ehl, hhl⟩ := toNat_half_product (toNat_hiHalf_lt x) (toNat_loHalf_lt y)
  obtain ⟨elh, hlh⟩ := toNat_half_product (toNat_loHalf_lt x) (toNat_hiHalf_lt y)
  obtain ⟨ehh, hhh⟩ := toNat_half_product (toNat_hiHalf_lt x) (toNat_hiHalf_lt y)
  calc (halfWordMultiply x y).toNat
      = (hiHalf x * hiHalf y).toNat * 2 ^ 32 + (hiHalf x * loHalf y).toNat * 2 ^ 16
          + (loHalf x * hiHalf y).toNat * 2 ^ 16 + (loHalf x * loHalf y).toNat :=
        toNat_highSum_of_bounds (r := MulRegs.zero.partialProducts x y) hll hhl hlh hhh
    _ = ((hiHalf x).toNat * 2 ^ 16 + (loHalf x).toNat) * ((hiHalf y).toNat * 2 ^ 16 + (loHalf y).toNat) := by
        rw [ell, ehl, elh, ehh]
        ring
    _ = x.toNat * y.toNat := by rw [← toNat_eq_halves, ← toNat_eq_halves]

/-! ### Shift-and-add (R82) -/

/-- A word is twice its upper 31 bits and its lowest bit. -/
theorem eq_shift_add_lowest_bit (y : Word) : y = (2 : Word) * (y >>> 1) + (if y.getLsbD 0 then 1 else 0 : Word) := by
  have hbit : (if y.getLsbD 0 then 1 else 0 : Word).toNat = y.toNat % 2 := by
    rw [BitVec.getLsbD, Nat.testBit_zero]
    split <;> simp_all
  have htwo : (2 : Word).toNat = 2 := rfl
  apply BitVec.eq_of_toNat_eq
  rw [BitVec.toNat_add, BitVec.toNat_mul, hbit, htwo, BitVec.toNat_ushiftRight, Nat.shiftRight_eq_div_pow]
  omega

/-- One turn keeps `acc + x * y` and shifts `y` right. -/
theorem shiftAddStep_invariant (r : MulRegs) :
    r.shiftAddStep.acc + r.shiftAddStep.x * r.shiftAddStep.y = r.acc + r.x * r.y ∧
    r.shiftAddStep.y.toNat = r.y.toNat / 2 := by
  unfold MulRegs.shiftAddStep
  by_cases h0 : r.y = 0
  · simp [h0]
  · rw [if_neg h0]
    refine ⟨?_, by simp [Nat.shiftRight_eq_div_pow]⟩
    have hx : r.x <<< 1 = 2 * r.x := by
      apply BitVec.eq_of_toNat_eq
      simp [Nat.shiftLeft_eq, Nat.mul_comm]
    conv_rhs => rw [eq_shift_add_lowest_bit r.y]
    dsimp only
    rw [hx]
    split <;> ring

theorem shiftAddLoop_invariant (k : Nat) (r : MulRegs) :
    (MulRegs.shiftAddLoop k r).acc + (MulRegs.shiftAddLoop k r).x * (MulRegs.shiftAddLoop k r).y = r.acc + r.x * r.y ∧
    (MulRegs.shiftAddLoop k r).y.toNat = r.y.toNat / 2 ^ k := by
  induction k generalizing r with
  | zero => simp [MulRegs.shiftAddLoop]
  | succ k ih =>
    obtain ⟨hstep, hy⟩ := shiftAddStep_invariant r
    obtain ⟨hloop, hy'⟩ := ih r.shiftAddStep
    exact ⟨hloop.trans hstep, by rw [MulRegs.shiftAddLoop, hy', hy, Nat.div_div_eq_div_mul, Nat.pow_succ']⟩

/-- After 32 turns nothing of `y` is left, so the product is in `acc`. -/
theorem shiftAddMultiply_eq (x y : Word) : shiftAddMultiply x y = x * y := by
  obtain ⟨hinv, hy⟩ := shiftAddLoop_invariant 32 { MulRegs.zero with acc := 0, x := x, y := y }
  have hy0 : (MulRegs.shiftAddLoop 32 { MulRegs.zero with acc := 0, x := x, y := y }).y = 0 :=
    BitVec.eq_of_toNat_eq (hy.trans (Nat.div_eq_of_lt y.isLt))
  rw [hy0] at hinv
  simpa [shiftAddMultiply] using hinv

/-! ### Booth (R87) -/

theorem mod_two_pow_succ_testBit (x k : Nat) : x % 2 ^ (k + 1) = x % 2 ^ k + 2 ^ k * (x.testBit k).toNat := by
  rw [Nat.mod_pow_succ, Nat.toNat_testBit]

theorem boothDigit_eq (u v w : Bool) : boothDigit u v w = v.toNat + w.toNat - 2 * u.toNat := by
  cases u <;> cases v <;> cases w <;> rfl

/-- The bit below the `i`-th digit, which the next lower digit has counted negatively. -/
def boothBorrow (y : Word) (i : Nat) : Bool := decide (i ≠ 0) && y.getLsbD (2 * i - 1)

/-- The first `k` digits make the low `2 * k` bits of the multiplier, less the bit that the next digit gives back. -/
theorem boothSum_eq (x y : Word) (k : Nat) :
    boothSum x y k = x.toNat * ((y.toNat % 2 ^ (2 * k) : Nat) - 4 ^ k * ((boothBorrow y k).toNat : Int)) := by
  induction k with
  | zero => simp [boothSum, boothBorrow, Nat.mod_one]
  | succ k ih =>
    have hborrow : boothBorrow y (k + 1) = y.getLsbD (2 * k + 1) := by simp [boothBorrow, Nat.mul_succ]
    have hbits : (y.toNat % 2 ^ (2 * (k + 1)) : Nat) = y.toNat % 2 ^ (2 * k) + 4 ^ k * (y.getLsbD (2 * k)).toNat
        + 2 * 4 ^ k * (y.getLsbD (2 * k + 1)).toNat := by
      rw [Nat.mul_succ, mod_two_pow_succ_testBit, mod_two_pow_succ_testBit, Nat.pow_succ, Nat.pow_mul]
      simp only [BitVec.getLsbD]
      ring
    have hdigit : boothDigitAt y k = (y.getLsbD (2 * k)).toNat + (boothBorrow y k).toNat
        - 2 * (y.getLsbD (2 * k + 1)).toNat := boothDigit_eq ..
    rw [boothSum, ih, hdigit, hborrow, hbits]
    push_cast
    ring

theorem boothMultiply_eq (x y : Word) : boothMultiply x y = BitVec.ofNat 64 (x.toNat * y.toNat) := by
  have hborrow : boothBorrow y 17 = false := by simp [boothBorrow]
  have hy : y.toNat % 2 ^ (2 * 17) = y.toNat := Nat.mod_eq_of_lt (by omega)
  rw [boothMultiply, boothSum_eq, hborrow, hy, bitsOf, ← BitVec.ofInt_natCast]
  simp

/-! ### Wallace (R87) -/

/-- The full adder, on the low `k` bits of three numbers. -/
theorem fullAdder_mod (a b c k : Nat) :
    a % 2 ^ k + b % 2 ^ k + c % 2 ^ k = 
      (a ^^^ b ^^^ c) % 2 ^ k + 2 * (((a &&& b) ||| (a &&& c) ||| (b &&& c)) % 2 ^ k) := by
  induction k with
  | zero => simp [Nat.mod_one]
  | succ k ih =>
    simp only [mod_two_pow_succ_testBit _ k, Nat.testBit_xor, Nat.testBit_and, Nat.testBit_or]
    cases a.testBit k <;> cases b.testBit k <;> cases c.testBit k <;> simp <;> omega

/-- A compressor keeps the sum of its three rows. -/
theorem compress_sum (a b c : DWord) : (compress a b c).1 + (compress a b c).2 = a + b + c := by
  apply BitVec.eq_of_toNat_eq
  have h := fullAdder_mod a.toNat b.toNat c.toNat 64
  simp only [compress, BitVec.toNat_add, BitVec.toNat_xor, BitVec.toNat_or, BitVec.toNat_and, BitVec.toNat_shiftLeft,
    Nat.shiftLeft_eq]
  omega

theorem wallaceLayer_sum (rows : List DWord) : (wallaceLayer rows).sum = rows.sum := by
  induction rows using wallaceLayer.induct with
  | case1 a b c rest ih =>
    rw [wallaceLayer, List.sum_cons, List.sum_cons, ih, ← add_assoc, compress_sum]
    simp [add_assoc]
  | case2 rows h => rw [wallaceLayer]; exact h

theorem wallaceLayer_length_le (rows : List DWord) : (wallaceLayer rows).length ≤ rows.length := by
  induction rows using wallaceLayer.induct with
  | case1 a b c rest ih => simp only [wallaceLayer, List.length_cons]; omega
  | case2 rows h => rw [wallaceLayer]; exact h

/-- A layer has fewer rows while there are more than two. -/
theorem wallaceLayer_length_lt {rows : List DWord} (h : 2 < rows.length) :
    (wallaceLayer rows).length < rows.length := by
  match rows, h with
  | a :: b :: c :: rest, _ =>
    have := wallaceLayer_length_le rest
    simp only [wallaceLayer, List.length_cons]
    omega

theorem wallaceReduce_sum (k : Nat) (rows : List DWord) : (wallaceReduce k rows).sum = rows.sum := by
  induction k generalizing rows with
  | zero => rfl
  | succ k ih =>
    rw [wallaceReduce]
    split
    · rfl
    · rw [ih, wallaceLayer_sum]

theorem wallaceReduce_length {k : Nat} {rows : List DWord} (h : rows.length ≤ k + 2) :
    (wallaceReduce k rows).length ≤ 2 := by
  induction k generalizing rows with
  | zero => exact h
  | succ k ih =>
    rw [wallaceReduce]
    split
    · assumption
    · have := wallaceLayer_length_lt (rows := rows) (by omega)
      exact ih (by omega)

theorem partialRows_length (x y : Word) (k : Nat) : (partialRows x y k).length = k := by
  induction k with
  | zero => rfl
  | succ k ih => rw [partialRows, List.length_cons, ih]

/-- The first `k` rows add up to the product with the low `k` bits of the multiplier. -/
theorem partialRows_sum (x y : Word) (k : Nat) :
    (partialRows x y k).sum = BitVec.ofNat 64 (x.toNat * (y.toNat % 2 ^ k)) := by
  induction k with
  | zero => simp [partialRows, Nat.mod_one]
  | succ k ih =>
    have hrow : (if y.getLsbD k then zext64 x <<< k else 0) =
        BitVec.ofNat 64 (x.toNat * (2 ^ k * (y.getLsbD k).toNat)) := by
      cases y.getLsbD k with
      | false => simp
      | true =>
        apply BitVec.eq_of_toNat_eq
        simp [zext64, Nat.shiftLeft_eq]
    rw [partialRows, List.sum_cons, ih, hrow, ← BitVec.ofNat_add, mod_two_pow_succ_testBit, Nat.mul_add, Nat.add_comm]
    rfl

/-- The final carry-propagate add gives the sum of the rows that are left. -/
theorem wallaceMultiply_eq_sum (x y : Word) : wallaceMultiply x y = (wallaceReduce 32 (partialRows x y 32)).sum := by
  have hlen : (wallaceReduce 32 (partialRows x y 32)).length ≤ 2 :=
    wallaceReduce_length (by rw [partialRows_length]; omega)
  unfold wallaceMultiply
  generalize wallaceReduce 32 (partialRows x y 32) = rows at hlen
  match rows, hlen with
  | [], _ => rfl
  | [a], _ => simp
  | [a, b], _ => simp

theorem wallaceMultiply_eq (x y : Word) : wallaceMultiply x y = BitVec.ofNat 64 (x.toNat * y.toNat) := by
  have hy : y.toNat % 2 ^ 32 = y.toNat := Nat.mod_eq_of_lt y.isLt
  rw [wallaceMultiply_eq_sum, wallaceReduce_sum, partialRows_sum, hy]

/-! ### The structures of P_MUL_IMPL (R80, R86) -/

theorem mul32Structure_eq (impl : MulImpl) (x y : Word) :
    mul32Structure impl x y = BitVec.ofNat 32 (x.toNat * y.toNat) := by
  cases impl with
  | shiftAdd => exact (shiftAddMultiply_eq x y).trans (ofNat_toNat_mul x y).symm
  | booth => rw [mul32Structure, boothMultiply_eq, lo_ofNat]
  | wallace => rw [mul32Structure, wallaceMultiply_eq, lo_ofNat]

/-- Settles O12: shift-and-add keeps `acc + x * y`, the Booth digits and the Wallace rows add up to the product. -/
theorem multiplierStructuresConform : Obligations.MultiplierStructuresConform := by
  unfold Obligations.MultiplierStructuresConform
  refine ⟨mul32Structure_eq, fun x y => ⟨?_, ?_⟩⟩
  · rw [boothMultiply_eq, toNat_ofNat_word_product]
  · rw [wallaceMultiply_eq, toNat_ofNat_word_product]

/-- Settles O13: the product of the high halves is beyond 64 bits, and the rest is what the composition adds. -/
theorem composedMultiplyIsMul64 : Obligations.ComposedMultiplyIsMul64 := by
  unfold Obligations.ComposedMultiplyIsMul64
  intro impl a b
  apply BitVec.eq_of_toNat_eq
  have hwide := halfWordMultiplyIsExact (lo a) (lo b)
  have hprod : a.toNat * b.toNat =
      (hi a).toNat * (hi b).toNat * 2 ^ 64 + ((hi a).toNat * (lo b).toNat + (lo a).toNat * (hi b).toNat) * 2 ^ 32
        + (lo a).toNat * (lo b).toNat := by
    have ha : a.toNat = (hi a).toNat * 2 ^ 32 + (lo a).toNat := by rw [toNat_hi, toNat_lo]; omega
    have hb : b.toNat = (hi b).toNat * 2 ^ 32 + (lo b).toNat := by rw [toNat_hi, toNat_lo]; omega
    calc a.toNat * b.toNat
        = ((hi a).toNat * 2 ^ 32 + (lo a).toNat) * ((hi b).toNat * 2 ^ 32 + (lo b).toNat) := by rw [← ha, ← hb]
      _ = _ := by ring
  simp only [composeMultiply, mul32Structure_eq, toNat_assembleHalves, BitVec.toNat_add, BitVec.toNat_ofNat,
    toNat_hi (halfWordMultiply _ _), toNat_lo (halfWordMultiply _ _), hwide, hprod]
  omega

/-! ### The multiplier's registers in flight (R84, R86, R180) -/

section Stages

variable (r : MulRegs) (impl : MulImpl) (a b : DWord)

/-- A turn of R82's loop leaves the stage and cross-product registers. -/
theorem shiftAddStep_stages :
    r.shiftAddStep = { r with acc := r.shiftAddStep.acc, x := r.shiftAddStep.x, y := r.shiftAddStep.y } := by
  unfold MulRegs.shiftAddStep
  split <;> rfl

theorem tick_partialProducts :
    (r.tick impl a b).pll = loHalf (lo a) * loHalf (lo b) ∧ (r.tick impl a b).phl = hiHalf (lo a) * loHalf (lo b) ∧
    (r.tick impl a b).plh = loHalf (lo a) * hiHalf (lo b) ∧ (r.tick impl a b).phh = hiHalf (lo a) * hiHalf (lo b) := by
  rw [MulRegs.tick, shiftAddStep_stages]
  exact ⟨rfl, rfl, rfl, rfl⟩

theorem tick_carrySums : (r.tick impl a b).t2 = r.sum2 ∧ (r.tick impl a b).t3 = r.sum3 := by
  rw [MulRegs.tick, shiftAddStep_stages]
  exact ⟨rfl, rfl⟩

theorem tick_crossProducts :
    (r.tick impl a b).c1 = mul32Structure impl (hi a) (lo b) ∧
    (r.tick impl a b).c2 = mul32Structure impl (lo a) (hi b) := by
  rw [MulRegs.tick, shiftAddStep_stages]
  exact ⟨rfl, rfl⟩

/-- One edge fills the partial products, the next one the carry sums: then the stages hold R84's product. -/
theorem tick_tick_highSum : ((r.tick impl a b).tick impl a b).highSum = halfWordMultiply (lo a) (lo b) := by
  obtain ⟨hll, hhl, hlh, -⟩ := tick_partialProducts r impl a b
  obtain ⟨hll', -, -, hhh'⟩ := tick_partialProducts (r.tick impl a b) impl a b
  obtain ⟨ht2, ht3⟩ := tick_carrySums (r.tick impl a b) impl a b
  simp only [MulRegs.highSum, hll', hhh', ht2, ht3, MulRegs.sum3, MulRegs.sum2, hll, hhl, hlh]
  rfl

/-- With the cross products the stages hold R86's composition. -/
theorem tick_tick_composed :
    let t := (r.tick impl a b).tick impl a b
    assembleHalves (hi t.highSum + t.c1 + t.c2) (lo t.highSum) = composeMultiply impl a b := by
  obtain ⟨hc1, hc2⟩ := tick_crossProducts (r.tick impl a b) impl a b
  dsimp only
  rw [tick_tick_highSum, hc1, hc2]
  rfl

end Stages

theorem family_of_multiply_op {r : Request} (h : r.op ∈ [0b0000#4, 0b0001#4, 0b0010#4]) : r.family = .multiply := by
  obtain ⟨op, a, b⟩ := r
  simp only [List.mem_cons, List.not_mem_nil, or_false] at h
  rcases h with rfl | rfl | rfl <;> simp [Request.family]

/-- The multiplier's registers `n` edges after the accept of a multiply. -/
theorem iterate_busyEdge_accept_mul {r : Request} (hr : r.family = .multiply) (s : State) (latency n : Nat) :
    (State.busyEdge^[n] (s.accept r latency)).hidden.mul =
      (MulRegs.tick s.params.pMulImpl r.a r.b)^[n] (.load r.a r.b) := by
  rw [iterate_busyEdge_hidden, iterate_tick_mul (r := (s.accept r latency).latched) hr]
  simp [Hidden.load, hr]

/-- Settles O14: by edge 3 two edges have filled the stages, which hold R84's product, and with the cross products
R86's. -/
theorem multiplyPipelineHoldsProduct : Obligations.MultiplyPipelineHoldsProduct := by
  unfold Obligations.MultiplyPipelineHoldsProduct
  intro s k hs hv hop hk hkL hp
  obtain ⟨n, rfl⟩ : ∃ n, k = n + 2 + 1 := ⟨k - 3, by omega⟩
  refine ⟨_, runEdges_accept hs hv (by omega) hp, iterate_busyEdge_st .., iterate_busyEdge_latched .., ?_⟩
  have hfam : s.input.request.family = .multiply := family_of_multiply_op hop
  rw [iterate_busyEdge_accept_mul hfam, Function.iterate_succ_apply', Function.iterate_succ_apply']
  exact ⟨(congrArg BitVec.toNat (tick_tick_highSum ..)).trans (halfWordMultiplyIsExact ..),
    (tick_tick_composed ..).trans (composedMultiplyIsMul64 ..)⟩

end Sys2Proof.Machine
end

section
/-!
PROOFS. Laws of the divides and the shifts: corner cases, the mode bit, zero denominators, and the half-word shifter
(41_divide.md R105 to R109; 42_shift.md R134, R136; 30_encoding.md R66).
-/

namespace Sys2Proof.Machine

open Sys2Proof.Safety

/-! ### Corner cases of the signed division (R105) -/

/-- Also for the most negative number, which is its own negation. -/
theorem sdivmod_neg_one {w : Nat} (hw : 1 < w) (n : BitVec w) : sdivmod n (-1) = (-n, 0) := by
  have h1 : (-1 : BitVec w).toInt = -1 := by
    change (-1#w).toInt = -1
    rw [BitVec.neg_one_eq_allOnes, BitVec.toInt_allOnes, if_pos (by omega)]
  have hq : n.toInt.tdiv (-1) = -n.toInt := by rw [Int.tdiv_neg, Int.tdiv_one]
  have hr : n.toInt.tmod (-1) = 0 := Int.tmod_eq_zero_of_dvd (by simp)
  rw [sdivmod_eq_ofInt, h1, hq, hr, BitVec.ofInt_neg, BitVec.ofInt_toInt]
  rfl

theorem sdivmod_one {w : Nat} (n : BitVec w) : sdivmod n 1 = (n, 0) := by
  rw [sdivmod_eq]
  exact Prod.ext BitVec.sdiv_one BitVec.srem_one

theorem sdivmod_of_natAbs_lt {w : Nat} {n d : BitVec w} (h : n.toInt.natAbs < d.toInt.natAbs) :
    sdivmod n d = (0, n) := by
  have hq : n.toInt.tdiv d.toInt = 0 := by
    rw [← Int.natAbs_eq_zero, Int.natAbs_tdiv]
    exact Nat.div_eq_of_lt h
  rw [sdivmod_eq_ofInt, Int.tmod_def, hq, mul_zero, sub_zero, BitVec.ofInt_toInt]
  rfl

/-- Settles O16: the overflow row is the row of -1 at the most negative number. -/
theorem signedCornerCases : Obligations.SignedCornerCases := by
  unfold Obligations.SignedCornerCases
  exact ⟨fun n => ⟨sdivmod_neg_one (by omega) n, sdivmod_one n⟩,
    fun n => ⟨sdivmod_neg_one (by omega) n, sdivmod_one n⟩,
    sdivmod_neg_one (by omega) _, sdivmod_neg_one (by omega) _, fun _ _ => sdivmod_of_natAbs_lt,
    fun _ _ => sdivmod_of_natAbs_lt⟩

/-! ### The mode bit (R66, R106) -/

/-- Two outcomes hold one pair in opposite places, or both are DIV_ZERO. -/
def ExecResult.SwapsWith (x y : ExecResult) : Prop :=
  (∃ q r, x = .ok q r ∧ y = .ok r q) ∨ (x = .fault .divZero ∧ y = .fault .divZero)

theorem place64_swaps (p : DWord × DWord) : (place64 .quotient p).SwapsWith (place64 .remainder p) :=
  .inl ⟨p.1, p.2, rfl, rfl⟩

theorem place32_swaps (p : Word × Word) : (place32 .quotient p).SwapsWith (place32 .remainder p) := place64_swaps _

/-- With the same draws. -/
theorem div0_32_swaps (policy : Div0Policy) (dr : Draws) :
    (div0_32 policy dr .quotient).SwapsWith (div0_32 policy dr .remainder) := by
  cases policy with
  | draw => exact place32_swaps _
  | fault => exact .inr ⟨rfl, rfl⟩

theorem divide32_swaps (f : Word → Word → Word × Word) (p : Params) (dr : Draws) (a b : DWord) :
    (divide32 f .quotient p dr a b).SwapsWith (divide32 f .remainder p dr a b) := by
  by_cases h : lo b = 0
  · rw [divide32_of_eq _ _ _ _ _ _ h, divide32_of_eq _ _ _ _ _ _ h]
    exact div0_32_swaps ..
  · rw [divide32_of_ne _ _ _ _ _ _ h, divide32_of_ne _ _ _ _ _ _ h]
    exact place32_swaps _

theorem divide64_swaps (f : DWord → DWord → DWord × DWord) (a b : DWord) :
    (divide64 f .quotient a b).SwapsWith (divide64 f .remainder a b) := by
  by_cases h : b = 0
  · rw [divide64_of_eq _ _ _ _ h, divide64_of_eq _ _ _ _ h]
    exact .inr ⟨rfl, rfl⟩
  · rw [divide64_of_ne _ _ _ _ h, divide64_of_ne _ _ _ _ h]
    exact place64_swaps _

theorem exec_swaps {i j : Instr} {s : State}
    (h : (resultOf s.params s.draws i).SwapsWith (resultOf s.params s.draws j)) :
    (∃ q r, exec i s = .next (s.complete q r) ∧ exec j s = .next (s.complete r q)) ∨
    (exec i s = .next (s.raiseFault .divZero) ∧ exec j s = .next (s.raiseFault .divZero)) := by
  obtain ⟨q, r, hi, hj⟩ | ⟨hi, hj⟩ := h
  · exact .inl ⟨q, r, exec_eq_complete hi, exec_eq_complete hj⟩
  · exact .inr ⟨by rw [exec_eq_finish, hi, State.finish_fault], by rw [exec_eq_finish, hj, State.finish_fault]⟩

/-- A shift completes with RES2 zero, in and out of range (R135). -/
theorem exec_shift_completes {i : Instr} {s : State} {f : DWord → Nat → DWord} {a b : DWord}
    (hi : resultOf s.params s.draws i = shiftBy f s.draws a b) : ∃ v, exec i s = .next (s.complete v 0) := by
  by_cases hk : shiftCount b < 64
  · exact ⟨_, exec_shift_in_range hi rfl hk⟩
  · exact ⟨_, exec_shift_out_of_range hi (Nat.not_lt.mp hk)⟩

/-- Settles O26: a quotient form and its remainder form place the pair of one division, and the other operations leave
RES2 zero. -/
theorem modeBitSwapsThePair : Obligations.ModeBitSwapsThePair := by
  unfold Obligations.ModeBitSwapsThePair
  refine fun a b s => ⟨fun i j hij => exec_swaps ?_, fun i hi => ?_⟩
  · simp only [List.mem_cons, List.not_mem_nil, or_false, Prod.mk.injEq] at hij
    obtain ⟨rfl, rfl⟩ | ⟨rfl, rfl⟩ | ⟨rfl, rfl⟩ | ⟨rfl, rfl⟩ := hij
    · exact divide32_swaps udivmod ..
    · exact divide32_swaps sdivmod ..
    · exact divide64_swaps udivmod ..
    · exact divide64_swaps sdivmod ..
  · simp only [List.mem_cons, List.not_mem_nil, or_false] at hi
    obtain rfl | rfl | rfl | rfl | rfl | rfl := hi
    · exact ⟨_, exec_eq_complete rfl⟩
    · exact ⟨_, exec_eq_complete rfl⟩
    · exact ⟨_, exec_eq_complete rfl⟩
    · exact exec_shift_completes rfl
    · exact exec_shift_completes rfl
    · exact exec_shift_completes rfl

/-! ### Zero denominators (R108, R109, R180) -/

theorem maxLatency_of_fault {p : Params} {r : Request} {c : Fault} (h : faultCause p (decode r) = some c) :
    maxLatency p r = max 1 p.pLatFault := by
  simp [maxLatency, h, atLeastOne]

theorem maxLatency_divide32 {p : Params} {r : Request} (h : faultCause p (decode r) = none)
    (hr : r.family = .divide32) :
    maxLatency p r = max 1 p.pLatDiv32Max := by
  simp [maxLatency, h, hr, atLeastOne]

/-- A request that faults takes the latency of a fault, and no drawn or counted one. -/
theorem requestLatency_of_fault {p : Params} {r : Request} {c : Fault} (h : faultCause p (decode r) = some c)
    (edge : Nat) : requestLatency p r edge = max 1 p.pLatFault := by
  rw [← maxLatency_of_fault h, requestLatency, if_pos (by rw [h]; rfl)]

/-- Settles O35: the four divides follow the policy, and under DRAW none of them has a cause, so the bound of a 32-bit
divide is their maximum. -/
theorem wordDivideByZeroFollowsThePolicy : Obligations.WordDivideByZeroFollowsThePolicy := by
  unfold Obligations.WordDivideByZeroFollowsThePolicy
  refine fun a b s hb => ⟨fun i hi => ?_, fun op hop hp => ?_⟩
  · simp only [List.mem_cons, List.not_mem_nil, or_false] at hi
    obtain rfl | rfl | rfl | rfl := hi <;> exact zeroDenominator32_of_divide32 rfl hb
  · obtain ⟨-, hmax⟩ := requestLatency_bounds s.params ⟨op, a, b⟩ s.edge
    have hcause : faultCause s.params (decode ⟨op, a, b⟩) = none ∧ (Request.mk op a b).family = .divide32 := by
      simp only [List.mem_cons, List.not_mem_nil, or_false] at hop
      obtain rfl | rfl | rfl | rfl := hop <;> simp [decode, faultCause, hp, Request.family]
    rwa [maxLatency_divide32 hcause.left hcause.right] at hmax

/-- Settles O36: `divide64` faults before it divides, and the cause is known at the accept. -/
theorem doubleWordDivideByZeroFaults : Obligations.DoubleWordDivideByZeroFaults := by
  unfold Obligations.DoubleWordDivideByZeroFaults
  refine fun a s => ⟨fun i hi => ?_, fun op hop => ?_⟩
  · simp only [List.mem_cons, List.not_mem_nil, or_false] at hi
    obtain rfl | rfl | rfl | rfl := hi <;> exact ⟨_, exec_of_faultCause_some rfl, rfl, rfl, rfl, rfl, rfl⟩
  · simp only [List.mem_cons, List.not_mem_nil, or_false] at hop
    obtain rfl | rfl | rfl | rfl := hop <;> exact requestLatency_of_fault rfl s.edge

/-! ### The half-word shifter (R134) -/

theorem bitsOf_ediv_two_pow {w : Nat} (x : BitVec w) (k : Nat) : bitsOf w (x.toInt / 2 ^ k) = x.sshiftRight k := by
  rw [bitsOf, BitVec.sshiftRight, Int.shiftRight_eq_div_pow, Int.natCast_pow, Int.cast_ofNat_Int]

@[simp] theorem getLsbD_hi (x : DWord) (i : Nat) : (hi x).getLsbD i = (decide (i < 32) && x.getLsbD (32 + i)) := by
  simp [hi]

@[simp] theorem getLsbD_lo (x : DWord) (i : Nat) : (lo x).getLsbD i = (decide (i < 32) && x.getLsbD i) := by
  simp [lo]

/-- A double word is assembled from its own halves. -/
theorem assembleHalves_eq_of {h l : Word} {x : DWord} (hh : h = hi x) (hl : l = lo x) : assembleHalves h l = x := by
  apply BitVec.eq_of_toNat_eq
  rw [toNat_assembleHalves, hh, hl, toNat_hi, toNat_lo]
  omega

section Halves

variable (a : DWord) (k : Nat)

theorem lo_shiftLeft : lo (a <<< k) = lo a <<< k := by
  ext i h
  simp [← BitVec.getLsbD_eq_getElem, h]
  grind

theorem hi_shiftLeft (hk : k < 32) : hi (a <<< k) = hi a <<< k ||| lo a >>> (32 - k) := by
  ext i h
  simp [← BitVec.getLsbD_eq_getElem, h]
  grind

theorem hi_ushiftRight : hi (a >>> k) = hi a >>> k := by
  ext i h
  simp [← BitVec.getLsbD_eq_getElem, h]
  grind

theorem lo_ushiftRight (hk : k < 32) : lo (a >>> k) = lo a >>> k ||| hi a <<< (32 - k) := by
  ext i h
  by_cases hik : k + i < 32
  · simp [← BitVec.getLsbD_eq_getElem, h, hik]
    grind
  · simp [← BitVec.getLsbD_eq_getElem, h, hik]
    grind

theorem hi_sshiftRight : hi (a.sshiftRight k) = (hi a).sshiftRight k := by
  ext i h
  simp [← BitVec.getLsbD_eq_getElem, h, BitVec.getLsbD_sshiftRight, BitVec.msb_eq_getLsbD_last]
  grind

/-- No copy of the sign comes down to the low half. -/
theorem lo_sshiftRight (hk : k ≤ 32) : lo (a.sshiftRight k) = lo (a >>> k) := by
  ext i h
  simp [← BitVec.getLsbD_eq_getElem, h, BitVec.getLsbD_sshiftRight, BitVec.msb_eq_getLsbD_last]
  grind

/-! A count from 32 on moves one half to the other and shifts it by what is left. -/

theorem hi_shiftLeft_add_32 : hi (a <<< (k + 32)) = lo a <<< k := by
  rw [BitVec.shiftLeft_add, ← lo_shiftLeft]
  ext i h
  simp [← BitVec.getLsbD_eq_getElem, h]
  omega

theorem lo_shiftLeft_add_32 : lo (a <<< (k + 32)) = 0 := by
  rw [lo_shiftLeft, BitVec.shiftLeft_eq_zero (by omega)]
  rfl

theorem hi_ushiftRight_add_32 : hi (a >>> (k + 32)) = 0 := by
  rw [hi_ushiftRight, BitVec.ushiftRight_eq_zero (by omega)]
  rfl

theorem lo_ushiftRight_add_32 : lo (a >>> (k + 32)) = hi a >>> k := by
  rw [BitVec.shiftRight_add, ← hi_ushiftRight]
  ext i h
  simp [← BitVec.getLsbD_eq_getElem, h]

theorem hi_sshiftRight_add_32 : hi (a.sshiftRight (k + 32)) = if (hi a).getLsbD 31 then 0xFFFFFFFF else 0 := by
  have hmsb : (hi a).getLsbD 31 = (hi a).msb := (BitVec.msb_eq_getLsbD_last _).symm
  have hones : (0xFFFFFFFF : Word) = BitVec.allOnes 32 := rfl
  rw [hi_sshiftRight, hmsb, hones]
  ext i h
  rw [BitVec.getElem_sshiftRight, dif_neg (by omega)]
  cases (hi a).msb with
  | true => exact (BitVec.getElem_allOnes i h).symm
  | false => simp

theorem lo_sshiftRight_add_32 : lo (a.sshiftRight (k + 32)) = (hi a).sshiftRight k := by
  rw [BitVec.sshiftRight_add, lo_sshiftRight _ _ le_rfl, ← hi_sshiftRight]
  exact (lo_ushiftRight_add_32 _ 0).trans (BitVec.ushiftRight_zero _)

end Halves

/-- Settles O32: below 32 the halves exchange `k` bits, and from 32 on one half moves to the other. -/
theorem halfWordShifterConforms : Obligations.HalfWordShifterConforms := by
  unfold Obligations.HalfWordShifterConforms
  intro a k hk
  simp only [halfWordShift, bitsOf_ediv_two_pow]
  rcases Nat.eq_zero_or_pos k with rfl | hpos
  · simp
  · rcases Nat.lt_or_ge k 32 with h32 | h32
    · simp only [Nat.ne_of_gt hpos, h32, if_true, if_false]
      exact ⟨assembleHalves_eq_of (hi_shiftLeft a k h32).symm (lo_shiftLeft a k).symm,
        assembleHalves_eq_of (hi_ushiftRight a k).symm (lo_ushiftRight a k h32).symm,
        assembleHalves_eq_of (hi_sshiftRight a k).symm
          ((lo_sshiftRight a k h32.le).trans (lo_ushiftRight a k h32)).symm⟩
    · obtain ⟨j, rfl⟩ := Nat.exists_eq_add_of_le' h32
      simp only [Nat.ne_of_gt hpos, Nat.not_lt.mpr h32, if_false, Nat.add_sub_cancel]
      exact ⟨assembleHalves_eq_of (hi_shiftLeft_add_32 a j).symm (lo_shiftLeft_add_32 a j).symm,
        assembleHalves_eq_of (hi_ushiftRight_add_32 a j).symm (lo_ushiftRight_add_32 a j).symm,
        assembleHalves_eq_of (hi_sshiftRight_add_32 a j).symm (lo_sshiftRight_add_32 a j).symm⟩

/-! ### Laws of the shifts (R136) -/

theorem shiftCount_ofNat {k : Nat} (hk : k < 64) : shiftCount (.ofNat 64 k) = k := by
  rw [shiftCount, lo_ofNat, BitVec.toNat_ofNat]
  omega

theorem toNat_ofNat_two_pow {k : Nat} (hk : k < 64) : (BitVec.ofNat 64 (2 ^ k)).toNat = 2 ^ k := by
  rw [BitVec.toNat_ofNat, Nat.mod_eq_of_lt (Nat.pow_lt_pow_right (by omega) hk)]

theorem ofNat_two_pow_ne_zero {k : Nat} (hk : k < 64) : BitVec.ofNat 64 (2 ^ k) ≠ 0 := fun h => by
  have h2 := toNat_ofNat_two_pow hk
  rw [h] at h2
  exact absurd h2.symm (by positivity)

/-- The divisor `2^63` would be negative. -/
theorem toInt_ofNat_two_pow {k : Nat} (hk : k < 63) : (BitVec.ofNat 64 (2 ^ k)).toInt = 2 ^ k := by
  have hlt : 2 ^ k < 2 ^ 63 := Nat.pow_lt_pow_right (by omega) hk
  have h := toNat_ofNat_two_pow (k := k) (by omega)
  rw [BitVec.toInt_eq_toNat_of_lt (by omega), h, Nat.cast_pow, Nat.cast_ofNat]

/-- Truncating and rounding down agree on a numerator that is not negative or a multiple. -/
theorem tdiv_eq_ediv_of_nonneg_or_emod {n d : Int} (h : 0 ≤ n ∨ n % d = 0) : n.tdiv d = n / d := by
  rcases h with h | h
  · exact Int.tdiv_eq_ediv_of_nonneg h
  · exact Int.tdiv_eq_ediv_of_dvd (Int.dvd_of_emod_eq_zero h)

/-- A left shift and a right shift by the same count clear the top bits. -/
theorem toNat_shiftRight_shiftLeft (a : DWord) {k : Nat} (hk : k < 64) :
    (shiftRight (shiftLeft a k) k).toNat = a.toNat % 2 ^ (64 - k) := by
  have h64 : 2 ^ 64 = 2 ^ (64 - k) * 2 ^ k := by rw [← Nat.pow_add, Nat.sub_add_cancel hk.le]
  rw [shiftRight_eq, BitVec.toNat_ushiftRight, shiftLeft, BitVec.toNat_ofNat, h64, Nat.mul_mod_mul_right,
    Nat.shiftRight_eq_div_pow, Nat.mul_div_cancel _ (by positivity)]

/-- A shift whose second operand is the count itself. -/
theorem exec_shift_ofNat {i : Instr} {s : State} {f : DWord → Nat → DWord} {a : DWord} {k : Nat} (hk : k < 64)
    (hi : resultOf s.params s.draws i = shiftBy f s.draws a (.ofNat 64 k)) : exec i s = .next (s.complete (f a k) 0) :=
  exec_shift_in_range hi (by rw [shiftCount_ofNat hk]) (by rwa [shiftCount_ofNat hk])

theorem exec_shift_zero (a : DWord) (s : State) :
    ∀ i ∈ [Instr.sll64 a 0, .srl64 a 0, .sra64 a 0], exec i s = .next (s.complete a 0) := by
  intro i hi
  simp only [List.mem_cons, List.not_mem_nil, or_false] at hi
  obtain rfl | rfl | rfl := hi
  · exact (exec_shift_ofNat (k := 0) (by omega) rfl).trans (by rw [shiftLeft_eq, BitVec.shiftLeft_zero])
  · exact (exec_shift_ofNat (k := 0) (by omega) rfl).trans (by rw [shiftRight_eq, BitVec.ushiftRight_zero])
  · exact (exec_shift_ofNat (k := 0) (by omega) rfl).trans (by rw [shiftArith_eq, BitVec.sshiftRight_zero])

/-- R114 by a power of two. -/
theorem exec_divu64_two_pow (a : DWord) {k : Nat} (hk : k < 64) (s : State) :
    ∃ r, exec (.divu64 a (.ofNat 64 (2 ^ k))) s = .next (s.complete (shiftRight a k) r) := by
  have hdiv := exec_divide64_of_ne (i := .divu64 a (.ofNat 64 (2 ^ k))) (s := s) (m := .quotient) rfl
    (udivmod_eq_ofNat ..) (ofNat_two_pow_ne_zero hk)
  rw [toNat_ofNat_two_pow hk] at hdiv
  exact ⟨_, hdiv⟩

/-- R116 by a power of two, where it truncates nothing that a floor would not. -/
theorem exec_div64_two_pow {a : DWord} {k : Nat} (hk : k < 63) (ha : 0 ≤ a.toInt ∨ a.toInt % 2 ^ k = 0)
    (s : State) :
    ∃ r, exec (.div64 a (.ofNat 64 (2 ^ k))) s = .next (s.complete (shiftArith a k) r) := by
  have hdiv := exec_divide64_of_ne (i := .div64 a (.ofNat 64 (2 ^ k))) (s := s) (m := .quotient) rfl
    (sdivmod_eq_ofInt ..) (ofNat_two_pow_ne_zero (by omega))
  rw [toInt_ofNat_two_pow hk, tdiv_eq_ediv_of_nonneg_or_emod ha] at hdiv
  exact ⟨_, hdiv⟩

/-- Settles O33: with the count `k` in `b` the shift is the multiplication or the division by `2^k` of its rule. -/
theorem shiftLaws : Obligations.ShiftLaws := by
  unfold Obligations.ShiftLaws
  refine fun a k s hk => ⟨exec_shift_zero a s, ?_, ?_, fun hk63 ha => ?_, fun _ => ?_⟩
  · rw [exec_shift_ofNat hk rfl, (mul64CompletesWithLowProduct a _).right s, toNat_ofNat_two_pow hk,
      shiftLeft]
  · obtain ⟨r, hdiv⟩ := exec_divu64_two_pow a hk s
    exact ⟨_, r, exec_shift_ofNat hk rfl, hdiv⟩
  · obtain ⟨r, hdiv⟩ := exec_div64_two_pow hk63 ha s
    exact ⟨_, r, exec_shift_ofNat hk rfl, hdiv⟩
  · exact ⟨_, _, exec_shift_ofNat hk rfl, exec_shift_ofNat hk rfl, toNat_shiftRight_shiftLeft a hk⟩

end Sys2Proof.Machine
end

section
/-!
PROOFS. The restoring divider against the unsigned division, and its registers in flight (41_divide.md R102 to R104;
70_reset_and_hazards.md R180; 10_state.md R30).
-/

namespace Sys2Proof.Machine

open Sys2Proof.Safety

/-! ### Registers of one width -/

theorem DivWidth.toNat_trunc (w : DivWidth) (x : DWord) : (w.trunc x).toNat = x.toNat % 2 ^ (w.top + 1) := by
  cases w with
  | w32 =>
    simp [trunc, top, zext64, toNat_lo]
    omega
  | w64 => exact (Nat.mod_eq_of_lt x.isLt).symm

theorem DivWidth.toNat_trunc_lt (w : DivWidth) (x : DWord) : (w.trunc x).toNat < 2 ^ (w.top + 1) := by
  rw [toNat_trunc]
  exact Nat.mod_lt _ (by positivity)

/-- A register of this width that is not zero has a negation that is not zero. -/
theorem DivWidth.negate_ne_zero (w : DivWidth) {x : DWord} (hlt : x.toNat < 2 ^ (w.top + 1)) (h : x ≠ 0) :
    w.negate x ≠ 0 := by
  intro hn
  have hpos := BitVec.toNat_pos_of_ne_zero h
  have h0 : (w.negate x).toNat = 0 := by rw [hn]; rfl
  rw [negate, toNat_trunc, BitVec.toNat_neg] at h0
  cases w <;> simp only [top] at hlt h0 <;> omega

/-- The magnitude of an operand, as the first edge of a divide takes it (R104). -/
def DivWidth.magnitude (w : DivWidth) (signed : Bool) (x : DWord) : DWord :=
  if signed && x.getLsbD w.top then w.negate (w.trunc x) else w.trunc x

theorem DivWidth.toNat_magnitude_lt (w : DivWidth) (signed : Bool) (x : DWord) :
    (w.magnitude signed x).toNat < 2 ^ (w.top + 1) := by
  unfold magnitude
  split
  · exact w.toNat_trunc_lt _
  · exact w.toNat_trunc_lt _

theorem DivWidth.magnitude_ne_zero (w : DivWidth) (signed : Bool) {x : DWord} (h : w.trunc x ≠ 0) :
    w.magnitude signed x ≠ 0 := by
  unfold magnitude
  split
  · exact w.negate_ne_zero (w.toNat_trunc_lt x) h
  · exact h

/-- The alignment test as a comparison of numbers. -/
theorem DivRegs.canAlign_iff {w : DivWidth} {r : DivRegs} (hd : r.d.toNat < 2 ^ (w.top + 1)) :
    r.canAlign w = true ↔ r.d.toNat < r.n.toNat ∧ r.d.toNat < 2 ^ w.top := by
  have hbit : r.d.getLsbD w.top = false ↔ r.d.toNat < 2 ^ w.top := by
    rw [BitVec.getLsbD, Nat.testBit_eq_decide_div_mod_eq, decide_eq_false_iff_not]
    cases w <;> simp only [DivWidth.top] at hd ⊢ <;> omega
  simp [canAlign, hbit]

/-! ### The alignment loop (R102, R103) -/

/-- After `j` alignment steps from numerator `N` and denominator `D`. -/
structure Aligning (w : DivWidth) (N D j : Nat) (r : DivRegs) : Prop where
  n : r.n.toNat = N
  d : r.d.toNat = D * 2 ^ j
  bit : r.bit.toNat = 2 ^ j
  q : r.q = 0
  d_lt : D * 2 ^ j < 2 ^ (w.top + 1)

section Align

variable {w : DivWidth} {N D j : Nat} {r : DivRegs}

theorem aligning_start {n d : DWord} (hd : d.toNat < 2 ^ (w.top + 1)) :
    Aligning w n.toNat d.toNat 0 (.start n d) := by
  constructor <;> simp [DivRegs.start, DivRegs.zero, hd]

theorem aligning_alignStep (h : Aligning w N D j r) (hD : 0 < D) (hc : r.canAlign w = true) :
    Aligning w N D (j + 1) (r.alignStep w) := by
  obtain ⟨hn, hd, hbit, hq, hlt⟩ := h
  obtain ⟨-, htop⟩ := (DivRegs.canAlign_iff (hd ▸ hlt)).mp hc
  have hle : 2 ^ j ≤ D * 2 ^ j := Nat.le_mul_of_pos_left _ hD
  have hpow : D * 2 ^ (j + 1) = 2 * (D * 2 ^ j) := by ring
  have hdouble : ∀ x : DWord, x.toNat < 2 ^ w.top → (w.trunc (x <<< 1)).toNat = 2 * x.toNat := by
    intro x hx
    rw [DivWidth.toNat_trunc, BitVec.toNat_shiftLeft, Nat.shiftLeft_eq]
    cases w <;> simp only [DivWidth.top] at hx ⊢ <;> omega
  refine ⟨hn, ?_, ?_, hq, ?_⟩
  · rw [DivRegs.alignStep, hdouble _ htop, hd, hpow]
  · rw [DivRegs.alignStep, hdouble _ (by omega), hbit, Nat.pow_succ']
  · rw [hpow, Nat.pow_succ']
    omega

/-- Enough fuel is what the width still allows. -/
theorem aligning_alignLoop (f : Nat) (h : Aligning w N D j r) (hD : 0 < D) (hf : w.top ≤ j + f) :
    Aligning w N D (j + DivRegs.alignCount w f r) (DivRegs.alignLoop w f r) ∧
    (DivRegs.alignLoop w f r).canAlign w = false := by
  induction f generalizing j r with
  | zero =>
    refine ⟨h, Bool.eq_false_iff.mpr fun hc => ?_⟩
    obtain ⟨-, htop⟩ := (DivRegs.canAlign_iff (h.d ▸ h.d_lt)).mp hc
    have hle : 2 ^ w.top ≤ D * 2 ^ j := (Nat.pow_le_pow_right (by omega) hf).trans (Nat.le_mul_of_pos_left _ hD)
    rw [DivRegs.alignLoop, h.d] at htop
    omega
  | succ f ih =>
    rw [DivRegs.alignLoop, DivRegs.alignCount]
    cases hc : r.canAlign w with
    | false => exact ⟨h, hc⟩
    | true =>
      have hstep := ih (aligning_alignStep h hD hc) (by omega)
      rwa [Nat.add_right_comm, Nat.add_assoc] at hstep

theorem Aligning.le_top (h : Aligning w N D j r) (hD : 0 < D) : j ≤ w.top := by
  have hle : 2 ^ j ≤ D * 2 ^ j := Nat.le_mul_of_pos_left _ hD
  have hlt : 2 ^ j < 2 ^ (w.top + 1) := hle.trans_lt h.d_lt
  exact Nat.lt_succ_iff.mp ((Nat.pow_lt_pow_iff_right (by omega)).mp hlt)

end Align

/-! ### The restoring loop (R102, R103) -/

/-- `k` restoring iterations before the end: `Q` has the quotient's bits from bit `k` on, and the rest of the numerator
is below the denominator shifted by `k`. -/
structure Restoring (N D k : Nat) (r : DivRegs) : Prop where
  bit : r.bit.toNat = 2 ^ k / 2
  d : r.d.toNat = D * 2 ^ k / 2
  n_lt : r.n.toNat < D * 2 ^ k
  sum : N = D * r.q.toNat + r.n.toNat
  q_dvd : 2 ^ k ∣ r.q.toNat

section Restore

variable {w : DivWidth} {N D k : Nat} {r : DivRegs}

/-- The alignment has ended where twice the denominator exceeds the numerator. -/
theorem restoring_of_aligning {j : Nat} (h : Aligning w N D j r) (hN : N < 2 ^ (w.top + 1)) (hD : 0 < D)
    (hc : r.canAlign w = false) : Restoring N D (j + 1) r := by
  obtain ⟨hn, hd, hbit, hq, hlt⟩ := h
  have hstop : ¬ (D * 2 ^ j < N ∧ D * 2 ^ j < 2 ^ w.top) := by
    rw [← hd, ← hn, ← DivRegs.canAlign_iff (hd ▸ hlt), hc]
    simp
  have hpow : D * 2 ^ (j + 1) = 2 * (D * 2 ^ j) := by ring
  refine ⟨?_, ?_, ?_, ?_, ?_⟩
  · rw [hbit, Nat.pow_succ', Nat.mul_div_cancel_left _ (by omega)]
  · rw [hd, hpow, Nat.mul_div_cancel_left _ (by omega)]
  · have hpos : 0 < D * 2 ^ j := by positivity
    rw [Nat.pow_succ'] at hN
    rw [hn, hpow]
    omega
  · simp [hq, hn]
  · simp [hq]

/-- One iteration sets bit `k` of the quotient where the denominator fits. -/
theorem restoring_restoreStep (h : Restoring N D (k + 1) r) : Restoring N D k r.restoreStep := by
  obtain ⟨hbit, hd, hn, hsum, hdvd⟩ := h
  have hpow : D * 2 ^ (k + 1) = 2 * (D * 2 ^ k) := by ring
  rw [Nat.pow_succ', Nat.mul_div_cancel_left _ (by omega)] at hbit
  rw [hpow] at hn
  rw [hpow, Nat.mul_div_cancel_left _ (by omega)] at hd
  have hbit' : (r.bit >>> 1).toNat = 2 ^ k / 2 := by
    rw [BitVec.toNat_ushiftRight, hbit, Nat.shiftRight_eq_div_pow, Nat.pow_one]
  have hd' : (r.d >>> 1).toNat = D * 2 ^ k / 2 := by
    rw [BitVec.toNat_ushiftRight, hd, Nat.shiftRight_eq_div_pow, Nat.pow_one]
  by_cases hge : r.n.toNat ≥ r.d.toNat
  · have hq : (r.q ||| r.bit).toNat = r.q.toNat + 2 ^ k := by
      obtain ⟨c, hc⟩ := hdvd
      rw [BitVec.toNat_or, hbit, hc, ← Nat.two_pow_add_eq_or_of_lt (Nat.pow_lt_pow_right (by omega) (by omega))]
    have hsub : (r.n - r.d).toNat = r.n.toNat - D * 2 ^ k := by rw [BitVec.toNat_sub_of_le hge, hd]
    rw [DivRegs.restoreStep, if_pos hge]
    refine ⟨hbit', hd', ?_, ?_, ?_⟩
    · dsimp only
      omega
    · dsimp only
      rw [hq, hsub, Nat.mul_add]
      omega
    · dsimp only
      rw [hq]
      exact (Nat.dvd_add_right (Nat.dvd_trans (Nat.pow_dvd_pow 2 (by omega)) hdvd)).mpr dvd_rfl
  · rw [DivRegs.restoreStep, if_neg hge]
    exact ⟨hbit', hd', by dsimp only; omega, hsum, Nat.dvd_trans (Nat.pow_dvd_pow 2 (by omega)) hdvd⟩

theorem Restoring.bit_eq_zero_iff (h : Restoring N D k r) : r.bit = 0 ↔ k = 0 := by
  rw [← BitVec.toNat_inj, h.bit]
  cases k with
  | zero => simp
  | succ k => simp [Nat.pow_succ]

theorem restoring_restoreLoop (f : Nat) (h : Restoring N D k r) (hf : k ≤ f) :
    Restoring N D 0 (DivRegs.restoreLoop f r) := by
  induction f generalizing k r with
  | zero =>
    obtain rfl : k = 0 := by omega
    exact h
  | succ f ih =>
    rw [DivRegs.restoreLoop]
    cases k with
    | zero => rwa [if_pos (h.bit_eq_zero_iff.mpr rfl)]
    | succ k =>
      rw [if_neg (fun hb => Nat.succ_ne_zero k (h.bit_eq_zero_iff.mp hb))]
      exact ih (restoring_restoreStep h) (by omega)

/-- Where no iteration is left the registers hold the quotient and the remainder. -/
theorem Restoring.pair_eq (h : Restoring N D 0 r) :
    (r.q, r.n) = (BitVec.ofNat 64 (N / D), BitVec.ofNat 64 (N % D)) := by
  have hlt : r.n.toNat < D := by simpa using h.n_lt
  obtain ⟨hq, hr⟩ := (Nat.div_mod_unique (by omega)).mpr ⟨(Nat.add_comm ..).trans h.sum.symm, hlt⟩
  rw [hq, hr, BitVec.ofNat_toNat, BitVec.ofNat_toNat, BitVec.setWidth_eq, BitVec.setWidth_eq]

end Restore

theorem restoringDivide_eq (w : DivWidth) {n d : DWord} (hn : n.toNat < 2 ^ (w.top + 1))
    (hd : d.toNat < 2 ^ (w.top + 1)) (h0 : d ≠ 0) :
    restoringDivide w n d = (BitVec.ofNat 64 (n.toNat / d.toNat), BitVec.ofNat 64 (n.toNat % d.toNat)) := by
  have hpos := BitVec.toNat_pos_of_ne_zero h0
  obtain ⟨ha, hc⟩ := aligning_alignLoop w.top (aligning_start (n := n) hd) hpos (by omega)
  have htop := ha.le_top hpos
  exact (restoring_restoreLoop (w.top + 1) (restoring_of_aligning ha hn hpos hc) (by omega)).pair_eq

/-- Settles O27: alignment ends where twice the denominator exceeds the numerator, and each restoring iteration keeps
numerator = denominator * quotient + remainder. -/
theorem restoringDivisionIsUnsignedDivision : Obligations.RestoringDivisionIsUnsignedDivision := by
  unfold Obligations.RestoringDivisionIsUnsignedDivision
  refine ⟨fun n d hd => ?_, fun n d hd => restoringDivide_eq .w64 n.isLt d.isLt hd⟩
  have hzext : ∀ x : Word, (x.setWidth 64).toNat = x.toNat := fun x => by simp; omega
  have hlt : ∀ x : Word, (x.setWidth 64).toNat < 2 ^ (DivWidth.w32.top + 1) := fun x => hzext x ▸ x.isLt
  have hne : d.setWidth 64 ≠ 0 := fun h => hd (BitVec.eq_of_toNat_eq (by rw [← hzext, h]; rfl))
  rw [restoringDivide_eq .w32 (hlt n) (hlt d) hne, hzext, hzext,
    BitVec.setWidth_ofNat_of_le_of_lt (by omega) ((Nat.div_le_self ..).trans_lt n.isLt),
    BitVec.setWidth_ofNat_of_le_of_lt (by omega) ((Nat.mod_le ..).trans_lt n.isLt)]

/-! ### The divider's registers in flight (R30, R180) -/

section Tick

variable {w : DivWidth} {N D k : Nat} {r : DivRegs}

/-- The first edge takes the magnitudes: the registers are those of the datapath's start, with the sign flags. -/
theorem tick_load (w : DivWidth) (signed : Bool) (a b : DWord) :
    (DivRegs.load w signed a b).tick w =
      { DivRegs.start (w.magnitude signed a) (w.magnitude signed b) with
        ns := signed && a.getLsbD w.top, ds := signed && b.getLsbD w.top } := rfl

/-- The alignment loop does not read the sign flags. -/
theorem alignCount_signs (w : DivWidth) (ns ds : Bool) (f : Nat) (r : DivRegs) :
    DivRegs.alignCount w f { r with ns := ns, ds := ds } = DivRegs.alignCount w f r := by
  induction f generalizing r with
  | zero => rfl
  | succ f ih => exact congrArg (fun c => if r.canAlign w then c + 1 else 0) (ih (r.alignStep w))

/-- While the divider aligns, each edge is a step of the alignment loop. -/
theorem iterate_tick_align (f : Nat) (hp : r.phase = .align) :
    (DivRegs.tick w)^[DivRegs.alignCount w f r] r = DivRegs.alignLoop w f r ∧
    (DivRegs.alignLoop w f r).phase = .align := by
  induction f generalizing r with
  | zero => exact ⟨rfl, hp⟩
  | succ f ih =>
    rw [DivRegs.alignCount, DivRegs.alignLoop]
    cases hc : r.canAlign w with
    | false => exact ⟨rfl, hp⟩
    | true =>
      have ht : r.tick w = r.alignStep w := by simp [DivRegs.tick, hp, hc]
      simpa [Function.iterate_succ_apply, ht] using ih (r := r.alignStep w) hp

theorem Aligning.withSigns {j : Nat} (h : Aligning w N D j r) (ns ds : Bool) :
    Aligning w N D j { r with ns := ns, ds := ds } := ⟨h.n, h.d, h.bit, h.q, h.d_lt⟩

/-- No register of the division reads the phase. -/
theorem Restoring.withPhase (h : Restoring N D k r) (p : DivPhase) : Restoring N D k { r with phase := p } :=
  ⟨h.bit, h.d, h.n_lt, h.sum, h.q_dvd⟩

/-- After the alignment an edge is a restoring iteration. -/
theorem tick_iterates (hp : r.phase = .restore ∨ r.phase = .align ∧ r.canAlign w = false) :
    r.tick w = { r.restoreStep with phase := if r.restoreStep.bit = 0 then .place else .restore } := by
  rcases hp with hp | ⟨hp, hc⟩
  · simp [DivRegs.tick, hp]
  · simp [DivRegs.tick, hp, hc]

/-- The last iteration leaves the divider waiting for the placement. -/
theorem iterate_tick_restore (h : Restoring N D (k + 1) r)
    (hp : r.phase = .restore ∨ r.phase = .align ∧ r.canAlign w = false) :
    ((DivRegs.tick w)^[k + 1] r).phase = .place ∧ Restoring N D 0 ((DivRegs.tick w)^[k + 1] r) := by
  induction k generalizing r with
  | zero =>
    have hstep := restoring_restoreStep h
    rw [Function.iterate_one, tick_iterates hp, if_pos (hstep.bit_eq_zero_iff.mpr rfl)]
    exact ⟨rfl, hstep.withPhase _⟩
  | succ k ih =>
    have hstep := restoring_restoreStep h
    rw [Function.iterate_succ_apply, tick_iterates hp,
      if_neg (fun hb => Nat.succ_ne_zero k (hstep.bit_eq_zero_iff.mp hb))]
    exact ih (hstep.withPhase _) (.inl rfl)

/-- The divider stays where it waits. -/
theorem iterate_tick_place (n : Nat) (hp : r.phase = .place) : (DivRegs.tick w)^[n] r = r :=
  Function.iterate_fixed (by simp [DivRegs.tick, hp]) n

/-- A divider that starts to align needs one edge for each alignment step and one more than that for the iterations. -/
theorem iterate_tick_ready (hp : r.phase = .align) (h : Aligning w N D 0 r) (hN : N < 2 ^ (w.top + 1))
    (hD : 0 < D) {n : Nat} (hn : DivRegs.alignCount w w.top r + (DivRegs.alignCount w w.top r + 1) ≤ n) :
    ((DivRegs.tick w)^[n] r).phase = .place ∧ Restoring N D 0 ((DivRegs.tick w)^[n] r) := by
  obtain ⟨ha, hc⟩ := aligning_alignLoop w.top h hD (by omega)
  obtain ⟨hloop, hphase⟩ := iterate_tick_align (w := w) w.top hp
  rw [Nat.zero_add] at ha
  obtain ⟨hplace, hdone⟩ := iterate_tick_restore (restoring_of_aligning ha hN hD hc) (.inr ⟨hphase, hc⟩)
  obtain ⟨e, rfl⟩ := Nat.exists_eq_add_of_le' hn
  rw [Function.iterate_add_apply, Nat.add_comm (DivRegs.alignCount ..), Function.iterate_add_apply, hloop,
    iterate_tick_place e hplace]
  exact ⟨hplace, hdone⟩

end Tick

/-! ### A divide in flight -/

/-- The divider's registers `n` edges after the accept of a divide. -/
theorem iterate_busyEdge_accept_div {r : Request} (hr : r.family = .divide32 ∨ r.family = .divide64) (s : State)
    (latency n : Nat) : (State.busyEdge^[n] (s.accept r latency)).hidden.div =
      (DivRegs.tick (Request.divWidth r))^[n] (.load (Request.divWidth r) r.isSigned r.a r.b) := by
  rw [iterate_busyEdge_hidden, iterate_tick_div (r := (s.accept r latency).latched) hr]
  rcases hr with hr | hr <;> simp [Hidden.load, hr]

/-- The 32-bit divides are the four rows of their family (R61, R62). -/
theorem decode_of_divide32 {r : Request} (h : r.family = .divide32) :
    Request.divWidth r = .w32 ∧ decode r ∈ [.divu32 r.a r.b, .remu32 r.a r.b, .div32 r.a r.b, .rem32 r.a r.b] := by
  obtain ⟨i, rfl⟩ : ∃ i, r = encode i := ⟨decode r, (encode_decode r).symm⟩
  rw [decode_encode]
  cases i <;> simp [Request.family, encode, Request.divWidth] at h ⊢

/-- And so are the 64-bit ones. -/
theorem decode_of_divide64 {r : Request} (h : r.family = .divide64) :
    Request.divWidth r = .w64 ∧ decode r ∈ [.divu64 r.a r.b, .remu64 r.a r.b, .div64 r.a r.b, .rem64 r.a r.b] := by
  obtain ⟨i, rfl⟩ : ∃ i, r = encode i := ⟨decode r, (encode_decode r).symm⟩
  rw [decode_encode]
  cases i <;> simp [Request.family, encode, Request.divWidth] at h ⊢

/-- A divide whose denominator is not zero has no cause, and is no 32-bit divide by zero. -/
theorem divide_of_trunc_ne_zero {r : Request} (hr : r.family = .divide32 ∨ r.family = .divide64)
    (hb : (Request.divWidth r).trunc r.b ≠ 0) (p : Params) :
    faultCause p (decode r) = none ∧ ¬ (lo r.b = 0 ∧ r.family = .divide32) := by
  rcases hr with hr | hr
  · obtain ⟨hw, hi⟩ := decode_of_divide32 hr
    have hlo : lo r.b ≠ 0 := fun h => hb (by rw [hw, DivWidth.trunc, h]; rfl)
    simp only [List.mem_cons, List.not_mem_nil, or_false] at hi
    refine ⟨?_, fun h => hlo h.left⟩
    rcases hi with hi | hi | hi | hi <;> rw [hi] <;> exact if_neg fun h => hlo h.left
  · obtain ⟨hw, hi⟩ := decode_of_divide64 hr
    have hb0 : r.b ≠ 0 := by rwa [hw] at hb
    simp only [List.mem_cons, List.not_mem_nil, or_false] at hi
    refine ⟨?_, by simp [hr]⟩
    rcases hi with hi | hi | hi | hi <;> rw [hi] <;> exact if_neg hb0

/-- In the reference form such a divide takes R180's count. -/
theorem requestLatency_reference {p : Params} {r : Request} (hr : r.family = .divide32 ∨ r.family = .divide64)
    (hb : (Request.divWidth r).trunc r.b ≠ 0) (hp : p.divLatency = .reference) (edge : Nat) :
    requestLatency p r edge = min (maxLatency p r) (referenceDivLatency r) := by
  obtain ⟨hcause, hzero⟩ := divide_of_trunc_ne_zero hr hb p
  have hcause' : ¬ (faultCause p (decode r)).isSome = true := by simp [hcause]
  simp only [requestLatency, if_neg hcause', hp, if_neg hzero]
  rcases hr with hr | hr <;> rw [hr]

/-- One edge for the magnitudes, `m` for the alignment and `m + 1` for the iterations leave the divider with the pair that
the datapath ends with: both hold the quotient and the remainder of the magnitudes. -/
theorem iterate_tick_load (w : DivWidth) (signed : Bool) (a : DWord) {b : DWord} (hb : w.trunc b ≠ 0) {n : Nat}
    (hn : alignSteps w (w.magnitude signed a) (w.magnitude signed b) +
      (alignSteps w (w.magnitude signed a) (w.magnitude signed b) + 1) ≤ n) :
    let r := (DivRegs.tick w)^[n + 1] (.load w signed a b)
    r.phase = .place ∧ (r.q, r.n) = restoringDivide w (w.magnitude signed a) (w.magnitude signed b) := by
  have hnum := w.toNat_magnitude_lt signed a
  have hden := w.toNat_magnitude_lt signed b
  have hne := w.magnitude_ne_zero signed hb
  obtain ⟨hphase, hdone⟩ := iterate_tick_ready
    (r := { DivRegs.start (w.magnitude signed a) (w.magnitude signed b) with
      ns := signed && a.getLsbD w.top, ds := signed && b.getLsbD w.top })
    rfl ((aligning_start hden).withSigns ..) hnum (BitVec.toNat_pos_of_ne_zero hne) (n := n)
    (by rw [alignCount_signs]; exact hn)
  dsimp only
  rw [Function.iterate_succ_apply, tick_load, restoringDivide_eq w hnum hden hne]
  exact ⟨hphase, hdone.pair_eq⟩

theorem alignSteps_le_top (w : DivWidth) (n : DWord) {d : DWord} (hd : d.toNat < 2 ^ (w.top + 1)) (h0 : d ≠ 0) :
    alignSteps w n d ≤ w.top := by
  have hpos := BitVec.toNat_pos_of_ne_zero h0
  obtain ⟨ha, -⟩ := aligning_alignLoop w.top (aligning_start (n := n) hd) hpos (by omega)
  exact (Nat.zero_add _).symm.trans_le (ha.le_top hpos)

/-- Settles O28: the registers of an accepted divide are those of its operands, moved by one tick at each edge. -/
theorem dividerIsReadyForItsLastEdge : Obligations.DividerIsReadyForItsLastEdge := by
  unfold Obligations.DividerIsReadyForItsLastEdge
  intro s hs hv r w num den m hr hb
  refine ⟨?_, fun hp hmax => ?_, fun k hk hkL hrst => ?_⟩
  · exact alignSteps_le_top w num (w.toNat_magnitude_lt r.isSigned r.b) (w.magnitude_ne_zero r.isSigned hb)
  · rw [requestLatency_reference hr hb hp]
    exact min_eq_right hmax
  · obtain ⟨n, rfl⟩ : ∃ n, k = n + 1 + 1 := ⟨k - 2, by omega⟩
    refine ⟨_, runEdges_accept hs hv (Nat.lt_of_succ_le hkL) hrst, iterate_busyEdge_st ..,
      iterate_busyEdge_latched .., ?_⟩
    rw [iterate_busyEdge_accept_div hr]
    have hready : m + (m + 1) ≤ n := by omega
    exact iterate_tick_load w r.isSigned r.a hb hready

end Sys2Proof.Machine
end
